-- ==== Sys2Proof/Word.lean ====
section
/-! DEFINITION. The plain word types of the SC-16: bytes, 16-bit words, TCP numbers and addresses. -/

namespace Sys2Proof

/-- One byte of a frame. -/
abbrev Byte := BitVec 8

/-- A 16-bit word: a port number, a header sequence, a batch serial, a word of a canonical key. -/
abbrev Word16 := BitVec 16

/-- A 32-bit TCP sequence or acknowledgement value, or a window; sums are taken mod 2^32 (Conventions, 00_scope.md). -/
abbrev Seq32 := BitVec 32

/-- A MAC address; its first octet on the wire is its most significant byte. -/
abbrev Mac := BitVec 48

/-- An IP address. An IPv4 address stands in the low 32 bits, the rest 0; the family beside it says which it is. -/
abbrev IpAddr := BitVec 128

/-- A whole frame, from the destination address through the 4-byte frame check sequence (R68, R166). -/
abbrev Frame := List Byte

/-- A canonical key: its 16-bit words in order (R11). -/
abbrev Key := List Word16

end Sys2Proof
end

