-- ==== Sys2Proof/Config.lean ====
section
/-! DEFINITION. What the SC-16 fixes once: the sizes of its tables, its codes of address, and the one free value. -/

namespace Sys2Proof.Config

/-- R1: the Session Table holds 16,384 entries, handles 0 to 16,383. -/
abbrev handles : Nat := 16384

/-- R14: the Key Index has 16,384 buckets. -/
abbrev buckets : Nat := 16384

/-- R14: a bucket has 4 slots. -/
abbrev slotsPerBucket : Nat := 4

/-- R70: a transmit queue holds up to 64 frames. -/
abbrev txDepth : Nat := 64

/-- R166: the Park Buffer has 4,096 cells. -/
abbrev cells : Nat := 4096

/-- R167: a cell holds 256 bytes. -/
abbrev cellBytes : Nat := 256

/-- R172: a release turn starts only when each transmit queue holds 56 frames or fewer. -/
abbrev releaseRoom : Nat := 56

/-- R172: a release turn takes up to 8 frames. -/
abbrev releaseBurst : Nat := 8

/-- R194: the Request Queue holds up to 4 requests. -/
abbrev requestDepth : Nat := 4

/-- R114: the walk cursor waits while the lanes together hold 512 entries. -/
abbrev walkRoom : Nat := 512

/-- R97: a SYNC payload is at most 1,440 bytes. -/
abbrev syncPayload : Nat := 1440

/-- R52: at most 16 records of one DECLARE are walked. -/
abbrev declRecords : Nat := 16

/-- R203: one LIST returns up to 16 handles. -/
abbrev listHandles : Nat := 16

/-- R62: an entry waits behind at most 2 RETIRING entries. -/
abbrev maxWaits : Nat := 2

/-- R215: a counter stays at 4,294,967,295. -/
abbrev counterMax : Nat := 4294967295

/-- R68: the shortest and the longest frame a Port Interface takes, check sequence included. -/
abbrev minFrame : Nat := 64
abbrev maxFrame : Nat := 1522

/-- R34: the cap of every window, 65,535 × 2^14. -/
abbrev windowCap : Nat := 1073725440

/-- The broadcast address FF-FF-FF-FF-FF-FF (R123). -/
abbrev broadcast : Mac := 0xFFFFFFFFFFFF#48

/-- R71: the EtherType of a Continuity Control Frame. -/
abbrev ccfType : Word16 := 0x88B5#16

/-- The 4-byte value that GET_ENTRY and FIND_ENTRY write for a TCP edge whose valid flag is clear: R189 gives the edge's
valid byte and 4 bytes of value and does not say what the value is then. Nothing constrains it. Log entry 7. -/
opaque freeEdge : Nat → Seq32

end Sys2Proof.Config
end

