-- ==== Sys2Proof/Syntax.lean ====
section
/-! DEFINITION. The commands of the SC-16: one constructor of `Instr` per row of spec/opcode_table.json. -/

namespace Sys2Proof

/-- The two firewalls (00_scope.md, Ports and sides). -/
inductive Fw where
  | a
  | b
deriving DecidableEq, Repr

/-- The six ports (00_scope.md, Ports and sides). -/
inductive Port where
  | lan
  | wan
  | aIn
  | aOut
  | bIn
  | bOut
deriving DecidableEq, Repr

/-- The commands. A frame command carries the port it arrives at and the frame whole, as received; a command that
serves a request carries nothing, since the request stands at the head of the Request Queue (R195). -/
inductive Instr where
  /-- RESET (R28): power-on or the RESET pin. -/
  | reset
  /-- RX_ERROR (R68): a frame of bad length or bad check sequence arrives. -/
  | rxError (port : Port) (frame : Frame)
  /-- DATA_FRAME (R83): a frame that is not a CCF arrives. -/
  | dataFrame (port : Port) (frame : Frame)
  /-- PULSE (R125): a CCF of kind 11h arrives. -/
  | pulse (port : Port) (frame : Frame)
  /-- DECLARE (R47): a CCF of kind 21h arrives. -/
  | declare (port : Port) (frame : Frame)
  /-- FLUSHED (R65): a CCF of kind 22h arrives. -/
  | flushed (port : Port) (frame : Frame)
  /-- SYNC_ACK (R102): a CCF of kind 32h arrives. -/
  | syncAck (port : Port) (frame : Frame)
  /-- QUERY (R194): a CCF of kind 51h arrives. -/
  | query (port : Port) (frame : Frame)
  /-- LINK_UP (R69): a port establishes its link. -/
  | linkUp (port : Port)
  /-- LINK_DOWN (R69): a port loses its link. -/
  | linkDown (port : Port)
  /-- TRANSMIT_FRAME (R70): a port sends the frame at the head of its transmit queue. -/
  | transmitFrame (port : Port)
  /-- RELEASE_TURN (R172): the head of the Release Queue sends up to 8 frames. -/
  | releaseTurn
  /-- PACK_BATCH (R96): a batch is filled from the lanes and sent. -/
  | packBatch
  /-- WALK_CURSOR_STEP (R114): the walk cursor examines one handle. -/
  | walkCursorStep
  /-- PULSE_TIMER_EXPIRY (R128): a firewall's pulse timer expires. -/
  | pulseTimerExpiry (fw : Fw)
  /-- CLASS_SWEEP_EXPIRY (R24): the sweeper of an aging class expires. -/
  | classSweepExpiry (cls : Fin 4)
  /-- TENTATIVE_SWEEP_EXPIRY (R25). -/
  | tentativeSweepExpiry
  /-- CONFIRM_SWEEP_EXPIRY (R101). -/
  | confirmSweepExpiry
  /-- PARK_SWEEP_EXPIRY (R175). -/
  | parkSweepExpiry
  /-- RESTART_HOLD_EXPIRY (R110). -/
  | restartHoldExpiry
  /-- STARTUP_WAIT_EXPIRY (R142). -/
  | startupWaitExpiry
  /-- HOLD_DOWN_EXPIRY (R139). -/
  | holdDownExpiry
  /-- FITNESS_DWELL_EXPIRY (R147). -/
  | fitnessDwellExpiry
  /-- QUIESCE_TIMER_EXPIRY (R152). -/
  | quiesceTimerExpiry
  /-- LATE_WINDOW_EXPIRY (R157). -/
  | lateWindowExpiry
  /-- CUTOVER_LIMIT_EXPIRY (R159). -/
  | cutoverLimitExpiry
  /-- GET_PARAM (R199): the request at the head of the Request Queue, a GET_PARAM, is served. -/
  | getParam
  /-- SET_PARAM (R199). -/
  | setParam
  /-- GET_STATUS (R201). -/
  | getStatus
  /-- GET_ENTRY (R202). -/
  | getEntry
  /-- FIND_ENTRY (R202). -/
  | findEntry
  /-- LIST (R203). -/
  | list
  /-- GET_COUNTERS (R204). -/
  | getCounters
  /-- GET_EVENTS (R204). -/
  | getEvents
  /-- CLEAR_EVENTS (R213). -/
  | clearEvents
  /-- SET_PREFIX (R205). -/
  | setPrefix
  /-- GET_PREFIX (R205). -/
  | getPrefix
  /-- SWITCHOVER (R146). -/
  | switchover
  /-- RESYNC (R206). -/
  | resync
  /-- PURGE (R207). -/
  | purge
  /-- TABLE_RESET (R208). -/
  | tableReset
  /-- UNKNOWN_REQUEST (R196): the head request's code is none of the fifteen. -/
  | unknownRequest
  /-- REFUSED_CCF (R185): a CCF arrives that is refused at the port gate, tagged or malformed. -/
  | refusedCcf (port : Port) (frame : Frame)
deriving DecidableEq, Repr

end Sys2Proof
end

