-- ==== Sys2Proof/Machine/Bytes.lean ====
section
/-! DEFINITION. Bytes of a frame: reading and writing multi-byte fields (most significant byte first, 00_scope.md,
Byte order), the frame check sequence, and the two firewalls' ports. -/

namespace Sys2Proof

/-! ## Firewalls and ports (00_scope.md, Ports and sides) -/

/-- The other firewall of the pair. -/
def Fw.other : Fw → Fw
  | .a => .b
  | .b => .a

/-- A firewall's IN port. -/
def Fw.inPort : Fw → Port
  | .a => .aIn
  | .b => .bIn

/-- A firewall's OUT port. -/
def Fw.outPort : Fw → Port
  | .a => .aOut
  | .b => .bOut

/-- The firewall a port is wired to, if it is a firewall's port. -/
def Port.fw? : Port → Option Fw
  | .lan => none
  | .wan => none
  | .aIn => some .a
  | .aOut => some .a
  | .bIn => some .b
  | .bOut => some .b

/-- The firewall whose IN port a port is. -/
def Port.inOf? : Port → Option Fw
  | .aIn => some .a
  | .bIn => some .b
  | _ => none

/-- The outside side is WAN together with A-OUT and B-OUT. -/
def Port.outside : Port → Bool
  | .wan => true
  | .aOut => true
  | .bOut => true
  | _ => false

end Sys2Proof

namespace Sys2Proof.Machine

/-! ## Reading fields -/

/-- The byte at an offset; 0 past the end (every caller has checked the length it needs). -/
def byteAt (f : List Byte) (i : Nat) : Byte := f.getD i 0

/-- The 16-bit field at an offset. -/
def word16At (f : List Byte) (i : Nat) : Word16 := byteAt f i ++ byteAt f (i + 1)

/-- The 32-bit field at an offset. -/
def word32At (f : List Byte) (i : Nat) : Seq32 := word16At f i ++ word16At f (i + 2)

/-- The number whose bytes stand in the list, most significant first. -/
def beNat (bs : List Byte) : Nat := bs.foldl (fun n b => n * 256 + b.toNat) 0

/-- The MAC address at an offset. -/
def macAt (f : List Byte) (i : Nat) : Mac := BitVec.ofNat 48 (beNat ((f.drop i).take 6))

/-- The IP address of `n` bytes at an offset. -/
def ipAt (f : List Byte) (i n : Nat) : IpAddr := BitVec.ofNat 128 (beNat ((f.drop i).take n))

/-! ## Writing fields -/

/-- The `k` bytes of a number, most significant first. -/
def beBytes : Nat → Nat → List Byte
  | 0, _ => []
  | k + 1, n => BitVec.ofNat 8 (n / 256 ^ k) :: beBytes k n

/-- One byte. -/
def be1 (n : Nat) : List Byte := [BitVec.ofNat 8 n]

/-- Two bytes; a value wider than the field is written at the field's saturation value (R192). -/
def be2 (n : Nat) : List Byte := beBytes 2 (min n 65535)

/-- Four bytes; a value wider than the field is written at the field's saturation value (R192). -/
def be4 (n : Nat) : List Byte := beBytes 4 (min n 4294967295)

/-- A flag's byte, 0 clear and 1 set (R189). -/
def beFlag (b : Bool) : List Byte := be1 (if b then 1 else 0)

/-- A MAC address's 6 bytes (R189). -/
def beMac (m : Mac) : List Byte := beBytes 6 m.toNat

/-! ## The frame check sequence
PRESUMED: the Ethernet ports are ordinary ones (00_scope.md) and the spec gives no polynomial; this is IEEE 802.3's
CRC-32. Log entry 3. -/

/-- A number handed on evaluated, so that Lean's kernel runs the check sequence byte by byte. -/
def onValue (n : Nat) (k : Nat → Nat) : Nat :=
  match n with
  | 0 => k 0
  | m + 1 => k (m + 1)

/-- `k` bits of the reflected CRC-32. -/
def crcBits : Nat → Nat → Nat
  | 0, c => c
  | k + 1, c => onValue (if c % 2 = 1 then (c / 2) ^^^ 0xEDB88320 else c / 2) (crcBits k)

/-- The reflected CRC-32 register after the bytes. -/
def crcBytes : List Byte → Nat → Nat
  | [], c => c
  | b :: bs, c => onValue (crcBits 8 (c ^^^ b.toNat)) (crcBytes bs)

/-- CRC-32 of a byte list. -/
def crc32 (bs : List Byte) : Nat := crcBytes bs 0xFFFFFFFF ^^^ 0xFFFFFFFF

/-- The 4 check-sequence bytes that follow a frame's other bytes, in wire order. -/
def fcsOf (bs : List Byte) : List Byte := (beBytes 4 (crc32 bs)).reverse

/-- R68: 64 to 1,522 bytes, counted from the destination address through the check sequence. -/
def frameLengthOk (f : Frame) : Bool := Config.minFrame ≤ f.length && f.length ≤ Config.maxFrame

/-- The frame without its 4 check-sequence bytes. -/
def withoutFcs (f : Frame) : List Byte := f.take (f.length - 4)

/-- R68: the frame check sequence is correct. -/
def fcsOk (f : Frame) : Bool := f.drop (f.length - 4) == fcsOf (withoutFcs f)

/-- R68: the frame is one a Port Interface takes. -/
def frameOk (f : Frame) : Bool := frameLengthOk f && fcsOk f

/-- A group (multicast or broadcast) address: the lowest bit of its first octet is set. PRESUMED, log entry 4. -/
def isGroup (m : Mac) : Bool := m.getLsbD 40

/-! ## Tags and EtherType (R71, R73) -/

/-- A VLAN tag stands at the offset: a TPID of 8100h or 88A8h. -/
def isTagAt (f : Frame) (i : Nat) : Bool := word16At f i == 0x8100#16 || word16At f i == 0x88A8#16

/-- The offset of the frame's EtherType: after the source address, or after the one tag; none with two or more tags. -/
def etherOffset (f : Frame) : Option Nat :=
  if isTagAt f 12 then (if isTagAt f 16 then none else some 16) else some 12

/-- R71: the frame is a CCF, with no tag or under one. -/
def isCcf (f : Frame) : Bool :=
  match etherOffset f with
  | some o => word16At f o == Config.ccfType
  | none => false

/-- R71: the CCF carries no tag. -/
def isUntagged (f : Frame) : Bool := !isTagAt f 12

end Sys2Proof.Machine
end

