-- ==== Sys2Proof/Machine/State.lean ====
section
/-! DEFINITION. The state of the SC-16 as plain data, block by block, and its value right after reset. Every field
names the rule of spec/ that gives it; INVENTORY.md lists them all. -/

namespace Sys2Proof

/-- One thing per port. -/
structure PerPort (α : Type) where
  lan : α
  wan : α
  aIn : α
  aOut : α
  bIn : α
  bOut : α
deriving DecidableEq, Repr

/-- One thing per firewall. -/
structure PerFw (α : Type) where
  a : α
  b : α
deriving DecidableEq, Repr

/-- A sparse table by number: strictly rising numbers, each with what it holds. -/
abbrev SMap (α : Type) := List (Nat × α)

namespace Machine

/-! ## Sessions (chapter 1) -/

/-- R1: an entry's family. -/
inductive Family where
  | v4
  | v6
deriving DecidableEq, Repr

/-- R1: an entry's protocol. -/
inductive Proto where
  | tcp
  | udp
  | echo
deriving DecidableEq, Repr

/-- One end of a session: an address and a port, or the echo identifier in the port's place (R12). -/
structure Endpoint where
  addr : IpAddr
  port : Word16
deriving DecidableEq, Repr

/-- R1: a tuple, its local endpoint (the office end) and its remote one. -/
structure Tuple where
  loc : Endpoint
  rem : Endpoint
deriving DecidableEq, Repr

/-- R11: the side a canonical key is of. -/
inductive Side where
  | inside
  | outside
deriving DecidableEq, Repr

/-- R1: who opened the session. -/
inductive Initiator where
  | loc
  | rem
deriving DecidableEq, Repr

/-- A direction of a session: OUT is data sent by the local endpoint, IN data sent toward it. -/
inductive Dir where
  | out
  | inn
deriving DecidableEq, Repr

/-- R1: the live edges of one direction; `none` is an edge whose valid flag is clear. -/
structure DirEdges where
  hiSeq : Option Seq32
  hiAck : Option Seq32
  maxWin : Option Seq32
deriving DecidableEq, Repr

/-- R1: the TCP tracking fields (the Sequence Tracker's). -/
structure Tracking where
  out : DirEdges
  inn : DirEdges
  scaleOut : Nat
  scaleIn : Nat
  scaleKnown : Bool
  anomalies : Nat
deriving DecidableEq, Repr

/-- The hi_seq and hi_ack of one direction as the mirror target last confirmed them, or as a batch carries them. -/
structure MirDir where
  hiSeq : Option Seq32
  hiAck : Option Seq32
deriving DecidableEq, Repr

/-- R1: the mirrored edges; R98: the edge snapshot of a batch's record. -/
structure MirEdges where
  out : MirDir
  inn : MirDir
deriving DecidableEq, Repr

/-- R1: an entry's standing at the mirror target. -/
inductive Peer where
  | absent
  | current
  | behind
deriving DecidableEq, Repr

/-- R90: the two lanes of the Mirror Queue. -/
inductive Lane where
  | normal
  | urgent
deriving DecidableEq, Repr

/-- R90: the kinds of record an entry may owe the target. -/
inductive RecKind where
  | declare
  | refresh
  | retire
deriving DecidableEq, Repr

/-- R1: the note beside an inflight serial. -/
inductive Note where
  | clean
  | superseded
  | owned
deriving DecidableEq, Repr

/-- R1: inflight, when it is not none: the batch serial and the note. -/
structure Inflight where
  serial : Word16
  note : Note
deriving DecidableEq, Repr

/-- R1: the fields a declaration gives, present in LIVE and RETIRING. -/
structure Declared where
  inside : Tuple
  declaredBy : Fw
  fwState : Nat
  policy : Word16
  blob : List Byte
deriving DecidableEq, Repr

/-- R1: the Mirror Engine's fields present in LIVE and RETIRING; `edges` is there for TCP entries only. -/
structure MirrorPart where
  edges : Option MirEdges
  peer : Peer
  lane : Option Lane
  queued : Option RecKind
  walk : Bool
  inflight : Option Inflight
deriving DecidableEq, Repr

/-- R77, 4.3: the Frame Classifier's classes. -/
inductive FrameClass where
  | track
  | pass
  | shadow
  | discard
deriving DecidableEq, Repr

/-- R166: a parked frame: the port it arrived at, its class, its bytes as it arrived, and its cells. The entry it matched
is the one whose chain holds it. -/
structure Parked where
  port : Port
  cls : FrameClass
  bytes : Frame
  cells : Nat
deriving DecidableEq, Repr

/-- R1: the fields present in LIVE alone. -/
structure LivePart where
  waits : Nat
  unprotected : Bool
  marked : Bool
  chain : List Parked
  chainAge : Nat
deriving DecidableEq, Repr

/-- What an entry holds by its phase. FREE has no body: a FREE handle is not listed in the table. -/
inductive Body where
  | tentative
  | live (d : Declared) (m : MirrorPart) (l : LivePart)
  | retiring (d : Declared) (m : MirrorPart) (blocks : List Nat)
deriving DecidableEq, Repr

/-- R1: an entry that is not FREE. `tcp` is there for TCP entries only. -/
structure Entry where
  family : Family
  proto : Proto
  outside : Tuple
  initiator : Initiator
  agingClass : Fin 4
  idleTag : Nat
  tcp : Option Tracking
  body : Body
deriving DecidableEq, Repr

/-- R1: the four phases. -/
inductive Phase where
  | free
  | tentative
  | live
  | retiring
deriving DecidableEq, Repr

/-- R14: an occupied slot of the Key Index: the bucket it lies in and the key it holds. -/
structure Slot where
  bucket : Nat
  key : Key
deriving DecidableEq, Repr

/-- Three latched level flags (R6, R181). -/
structure Levels where
  l1 : Bool
  l2 : Bool
  l3 : Bool
deriving DecidableEq, Repr

/-- The Session Table and the Key Index. `entries` lists the entries that are not FREE by handle, so the free set is
every handle not listed (R4). `slots` lists the occupied Key Index slots by 2 × handle, plus 1 for the slot of an
outside key: the four slots of a bucket have no order (R14), and an entry has at most one of each (R15). -/
structure Table where
  entries : SMap Entry
  slots : SMap Slot
  occupancy : Nat
  tentative : Nat
  levels : Levels
deriving DecidableEq, Repr

/-! ## Declarations (chapter 3) -/

/-- R50: a sequence record whose baseline is set. A clear baseline is `none`. -/
structure SeqRecord where
  expected : Word16
  lastReceived : Word16
deriving DecidableEq, Repr

/-! ## Ports and classifier (chapter 4) -/

/-- R69: a port's link state. -/
inductive Link where
  | down
  | up
deriving DecidableEq, Repr

/-- A Port Interface: link state (R69) and transmit queue, head first (R70). -/
structure PortState where
  link : Link
  tx : List Frame
deriving DecidableEq, Repr

/-- R77: a row of the Prefix Class Table. -/
structure PrefixRow where
  valid : Bool
  family : Family
  addr : IpAddr
  length : Nat
  cls : FrameClass
deriving DecidableEq, Repr

/-! ## Mirror (chapter 5) -/

/-- R87: the mirror states. -/
inductive MirrorState where
  | idle
  | walking
  | streaming
  | stalled
  | pushing
deriving DecidableEq, Repr

/-- A timer: stopped, or running with the period it took when it was started, in its parameter's unit. -/
inductive Timer where
  | stopped
  | running (period : Nat)
deriving DecidableEq, Repr

/-- R110: the restart hold. -/
inductive RestartHold where
  | stopped
  | running (period : Nat)
  | expired
deriving DecidableEq, Repr

/-- R100: one record of an outstanding batch; `edges` is the snapshot of a DECLARE or REFRESH of a TCP entry. -/
structure BatchRecord where
  handle : Nat
  kind : RecKind
  walk : Bool
  edges : Option MirEdges
deriving DecidableEq, Repr

/-- R100: an outstanding batch. -/
structure Batch where
  serial : Word16
  age : Nat
  begin : Bool
  records : List BatchRecord
deriving DecidableEq, Repr

/-- R87: the Mirror Engine's own state. `slots` holds the occupied slots of the Outstanding Batch Table in the order in
which their batches were sent; the other slots of the 16 are empty. -/
structure Mirror where
  target : Option Fw
  state : MirrorState
  urgent : List Nat
  normal : List Nat
  slots : List Batch
  nextSerial : Word16
  timeouts : Nat
  cursor : Nat
  walkPending : Nat
  walkQueued : Nat
  beginPending : Bool
  restartHold : RestartHold
deriving DecidableEq, Repr

/-! ## Health (chapter 6) -/

/-- R123: why a firewall is DOWN. -/
inductive DownReason where
  | unfit
  | pulseLoss
  | link
deriving DecidableEq, Repr

/-- R122, R123: a health state; the down reason is present in DOWN alone. -/
inductive HealthState where
  | absent
  | joining
  | up
  | suspect
  | down (reason : DownReason)
deriving DecidableEq, Repr

/-- R134: a firewall's role. -/
inductive RoleName where
  | none
  | active
  | standby
deriving DecidableEq, Repr

/-- R123: a health record. -/
structure HealthRecord where
  state : HealthState
  misses : Nat
  good : Nat
  fitness : Nat
  claimed : RoleName
  lastSeq : Word16
  learned : Mac
  pulseTimer : Timer
deriving DecidableEq, Repr

/-! ## Roles (chapter 7) -/

/-- R138: the cutover phases. -/
inductive CutPhase where
  | none
  | quiesce
  | transfer
  | settle
deriving DecidableEq, Repr

/-- R138: the cutover kinds. -/
inductive CutKind where
  | planned
  | unplanned
deriving DecidableEq, Repr

/-- R138: the cutover reasons. -/
inductive CutReason where
  | failure
  | recovery
  | startup
  | switchover
  | preferred
  | fitness
deriving DecidableEq, Repr

/-- R138: the startup wait. -/
inductive StartupWait where
  | running (period : Nat)
  | over
deriving DecidableEq, Repr

/-- R138: the fitness dwell. -/
inductive Dwell where
  | stopped
  | running (period : Nat)
  | complete
deriving DecidableEq, Repr

/-- R138: the cutover record. -/
structure CutRecord where
  markedAtTransfer : Nat
  reMarked : Nat
  confirmed : Nat
  released : Nat
  parked : Nat
  dropped : Nat
deriving DecidableEq, Repr

/-- R138: the Role Controller's state. -/
structure Role where
  active : Fw
  phase : CutPhase
  kind : Option CutKind
  reason : Option CutReason
  source : Option Fw
  dest : Option Fw
  epoch : Word16
  dark : Bool
  startup : StartupWait
  holdDown : Timer
  dwell : Dwell
  quiesce : Timer
  lateWindow : Timer
  cutLimit : Timer
  marked : Nat
  record : CutRecord
deriving DecidableEq, Repr

/-! ## Park Buffer (chapter 8) -/

/-- R166: the Park Buffer's own state; the chains stand in the LIVE entries. -/
structure Park where
  cellsInUse : Nat
  framesHeld : Nat
  releaseQueue : List Nat
  levels : Levels
deriving DecidableEq, Repr

/-- The periods the sweepers run with (R27, R87, R175): each takes its parameter's value at each expiry. -/
structure Sweepers where
  classes : Vector Nat 4
  tentative : Nat
  confirm : Nat
  park : Nat
deriving DecidableEq, Repr

/-! ## Control Agent (chapters 10 and 11) -/

/-- R194: a queued request. -/
structure Request where
  code : Byte
  id : Word16
  args : List Byte
  port : Port
  source : Mac
deriving DecidableEq, Repr

/-- R210: an event flag and its occurrence count. -/
structure EventState where
  flag : Bool
  count : Nat
deriving DecidableEq, Repr

/-! ## Names the Control Agent numbers -/

/-- R198: the thirty-seven parameters, in the order of their ids. -/
inductive ParamId where
  | unitAddress
  | preferred
  | preemptPreferred
  | fitnessPreemption
  | fitnessMargin
  | fitnessDwell
  | beatPeriod
  | deadCount
  | rejoinCount
  | holdDown
  | startupWait
  | quiesceTimeout
  | lateWindow
  | cutoverLimit
  | batchWindow
  | confirmSweep
  | stallCount
  | recordLimit
  | agingSweep (cls : Fin 4)
  | tentativeSweep
  | tentativeLimit
  | hashSeed
  | parkSweep
  | parkLimit
  | tableLevel (n : Fin 3)
  | parkLevel (n : Fin 3)
  | noticeEnable
  | noticeTargets
  | lanManagement
  | nonIpClass
deriving DecidableEq, Repr

/-- R215: the fifty-one counters. -/
inductive Counter where
  | framesIn (p : Port)
  | framesOut (p : Port)
  | rxError
  | txDrop
  | ccfPortDrop
  | ccfMalformed
  | discard
  | standbyEmit
  | entriesCreated
  | entriesPromoted
  | entriesFreed
  | tentativeCreated
  | tentativeExpired
  | untrackedSyn
  | aged
  | anomalies
  | declAccepted
  | refusedWrongRole
  | refusedBadRecord
  | refusedKeyClash
  | refusedTableFull
  | refusedBucketFull
  | dropMiss
  | declUnwalked
  | flushedIgnored
  | batchesSent
  | recordsAccepted
  | recordsRefused
  | batchTimeouts
  | strayAck
  | walks
  | roleMismatch
  | cutoversPlanned
  | cutoversUnplanned
  | cutoverAborts
  | releasedUnconfirmed
  | parked
  | released
  | parkDrop
  | parkDiscarded
  | reqOverflow
deriving DecidableEq, Repr

/-- Chapter 11: the sixteen events, in the order of their codes. -/
inductive EventId where
  | fwDown
  | fwUp
  | cutoverStart
  | cutoverEnd
  | cutoverAbort
  | dark
  | mirrorStalled
  | walkDone
  | declRefused
  | declGap
  | wrongRole
  | syncRefused
  | tableLevel
  | parkLevel
  | portLink
  | tentativeLimit
deriving DecidableEq, Repr

/-- R183: the ten kinds of CCF. -/
inductive CcfKind where
  | pulse
  | role
  | declare
  | flushed
  | drain
  | sync
  | syncAck
  | notice
  | query
  | reply
deriving DecidableEq, Repr

/-- R188: the reply statuses. -/
inductive Status where
  | ok
  | clamped
  | unknown
  | badArg
  | notPermitted
  | busy
  | notReady
deriving DecidableEq, Repr

/-- R54: the reasons a declaration record is refused for. -/
inductive RefusalReason where
  | badRecord
  | keyClash
  | tableFull
  | bucketFull
deriving DecidableEq, Repr

/-- R102: what a status byte says of a record. -/
inductive SyncStatus where
  | accept
  | refuseFull
  | refuseBad
deriving DecidableEq, Repr

/-- R155: how a mark that is cleared is tallied. -/
inductive MarkEnd where
  | confirmed
  | released
  | neither
deriving DecidableEq, Repr

/-! ## The whole part -/

/-- The whole state of the SC-16. `pending` is the queue of waiting commands, first in, first out, and `freeReads`
counts the free values taken so far: these two are the model's own. Every other field is the spec's. -/
structure State where
  pending : List Instr
  ports : PerPort PortState
  prefixes : Vector PrefixRow 32
  table : Table
  decl : PerFw (Option SeqRecord)
  mirror : Mirror
  health : PerFw HealthRecord
  role : Role
  park : Park
  sweepers : Sweepers
  params : Vector Nat 37
  requests : List Request
  events : Vector EventState 16
  counters : Vector Nat 51
  freeReads : Nat
deriving DecidableEq, Repr

/-- Why the machine stops with a fault. No rule of the spec stops the SC-16, so no constructor stands here: every command
has an effect in every state. -/
inductive Fault where
deriving DecidableEq, Repr

/-- Why a command is refused. -/
inductive Refusal where
  /-- A command that has no meaning yet: raised by an arm of `exec` alone. Safe: nothing is claimed of it. No arm of this
  model raises it. -/
  | notModelled (mnemonic : String)
deriving DecidableEq, Repr

/-- R198: the defaults of parameters 1 to 37, in order. -/
def defaultParams : Vector Nat 37 :=
  #v[0x024C4A000001, 1, 0, 0, 2, 5, 100, 3, 5, 30, 5, 500, 1000, 10, 8, 20, 3, 24,
     1200, 10, 30, 10, 10, 2048, 0, 50, 32, 50, 75, 90, 50, 75, 90, 65535, 3, 0, 2]

/-- R123: a health record after reset. -/
def HealthRecord.reset : HealthRecord :=
  { state := .absent, misses := 0, good := 0, fitness := 0, claimed := .none, lastSeq := 0#16,
    learned := Config.broadcast, pulseTimer := .stopped }

/-- R138: the cutover record set to zeros. -/
def CutRecord.zero : CutRecord :=
  { markedAtTransfer := 0, reMarked := 0, confirmed := 0, released := 0, parked := 0, dropped := 0 }

/-- Three clear level flags. -/
def Levels.clear : Levels := { l1 := false, l2 := false, l3 := false }

/-- R28: the Session Table after reset. -/
def Table.reset : Table :=
  { entries := [], slots := [], occupancy := 0, tentative := 0, levels := .clear }

/-- R87: the Mirror Engine after reset. -/
def Mirror.reset : Mirror :=
  { target := none, state := .idle, urgent := [], normal := [], slots := [], nextSerial := 0#16, timeouts := 0,
    cursor := 16384, walkPending := 0, walkQueued := 0, beginPending := false, restartHold := .stopped }

/-- R138, R142: the Role Controller after reset. The preferred firewall is parameter 2, which reset puts at its default,
A; the startup wait runs with parameter 11's default, 5 s. -/
def Role.reset : Role :=
  { active := .a, phase := .none, kind := none, reason := none, source := none, dest := none, epoch := 0#16,
    dark := false, startup := .running 5, holdDown := .stopped, dwell := .stopped, quiesce := .stopped,
    lateWindow := .stopped, cutLimit := .stopped, marked := 0, record := .zero }

/-- R166: the Park Buffer after reset. -/
def Park.reset : Park := { cellsInUse := 0, framesHeld := 0, releaseQueue := [], levels := .clear }

/-- R28, R87, R166: the sweepers have just started with their default periods. -/
def Sweepers.reset : Sweepers :=
  { classes := #v[1200, 10, 30, 10], tentative := 10, confirm := 20, park := 50 }

/-- R78: a row of the Prefix Class Table after reset. -/
def PrefixRow.reset : PrefixRow :=
  { valid := false, family := .v4, addr := 0#128, length := 0, cls := .track }

/-- R69, R86: a port after reset. -/
def PortState.reset : PortState := { link := .down, tx := [] }

/-- The machine right after reset (R28, R67, R78, R86, R87, R123, R138, R166, R209, R210, R215). -/
def State.reset : State :=
  { pending := []
    ports := { lan := .reset, wan := .reset, aIn := .reset, aOut := .reset, bIn := .reset, bOut := .reset }
    prefixes := Vector.replicate 32 .reset
    table := .reset
    decl := { a := none, b := none }
    mirror := .reset
    health := { a := .reset, b := .reset }
    role := .reset
    park := .reset
    sweepers := .reset
    params := defaultParams
    requests := []
    events := Vector.replicate 16 { flag := false, count := 0 }
    counters := Vector.replicate 51 0
    freeReads := 0 }

end Machine

end Sys2Proof
end

