-- ==== Sys2Proof/Machine/Ops.lean ====
section
/-! DEFINITION. The named operations that every block shares: tables by number, parameters, counters, transmit queues,
the frames the part builds, the roles read from the Role Controller, canonical keys and the Key Index, entries, and the
lanes of the Mirror Queue. -/

namespace Sys2Proof

/-! ## Tables by port, by firewall and by number -/

def PerPort.get {α : Type} (m : PerPort α) : Port → α
  | .lan => m.lan
  | .wan => m.wan
  | .aIn => m.aIn
  | .aOut => m.aOut
  | .bIn => m.bIn
  | .bOut => m.bOut

def PerPort.set {α : Type} (m : PerPort α) (p : Port) (x : α) : PerPort α :=
  match p with
  | .lan => { m with lan := x }
  | .wan => { m with wan := x }
  | .aIn => { m with aIn := x }
  | .aOut => { m with aOut := x }
  | .bIn => { m with bIn := x }
  | .bOut => { m with bOut := x }

def PerFw.get {α : Type} (m : PerFw α) : Fw → α
  | .a => m.a
  | .b => m.b

def PerFw.set {α : Type} (m : PerFw α) (fw : Fw) (x : α) : PerFw α :=
  match fw with
  | .a => { m with a := x }
  | .b => { m with b := x }

/-- What stands at a number. -/
def SMap.get? {α : Type} : SMap α → Nat → Option α
  | [], _ => none
  | (k, x) :: t, n => if k = n then some x else SMap.get? t n

/-- The table with `x` at the number. -/
def SMap.put {α : Type} : SMap α → Nat → α → SMap α
  | [], n, x => [(n, x)]
  | (k, y) :: t, n, x =>
    if n < k then (n, x) :: (k, y) :: t
    else if n = k then (n, x) :: t
    else (k, y) :: SMap.put t n x

/-- The table with nothing at the number. -/
def SMap.del {α : Type} : SMap α → Nat → SMap α
  | [], _ => []
  | (k, y) :: t, n => if k = n then t else (k, y) :: SMap.del t n

/-- Every number is above `b` and the numbers rise strictly. -/
def SMap.above {α : Type} : SMap α → Nat → Bool
  | [], _ => true
  | (k, _) :: t, b => b < k && SMap.above t k

/-- The canonical form of a table by number: the numbers rise strictly. -/
def SMap.wf {α : Type} : SMap α → Bool
  | [] => true
  | (k, _) :: t => SMap.above t k

namespace Machine

/-! ## Parameters (R198) -/

/-- A parameter's id less 1. -/
def ParamId.index : ParamId → Fin 37
  | .unitAddress => 0
  | .preferred => 1
  | .preemptPreferred => 2
  | .fitnessPreemption => 3
  | .fitnessMargin => 4
  | .fitnessDwell => 5
  | .beatPeriod => 6
  | .deadCount => 7
  | .rejoinCount => 8
  | .holdDown => 9
  | .startupWait => 10
  | .quiesceTimeout => 11
  | .lateWindow => 12
  | .cutoverLimit => 13
  | .batchWindow => 14
  | .confirmSweep => 15
  | .stallCount => 16
  | .recordLimit => 17
  | .agingSweep c => ⟨18 + c.val, by omega⟩
  | .tentativeSweep => 22
  | .tentativeLimit => 23
  | .hashSeed => 24
  | .parkSweep => 25
  | .parkLimit => 26
  | .tableLevel n => ⟨27 + n.val, by omega⟩
  | .parkLevel n => ⟨30 + n.val, by omega⟩
  | .noticeEnable => 33
  | .noticeTargets => 34
  | .lanManagement => 35
  | .nonIpClass => 36

/-- The value a parameter holds. -/
def State.param (s : State) (p : ParamId) : Nat := s.params[p.index]

/-- A parameter written. -/
def State.setParam (s : State) (p : ParamId) (v : Nat) : State :=
  { s with params := s.params.set p.index v }

/-- The unit address, parameter 1 (R133). -/
def State.unitAddress (s : State) : Mac := BitVec.ofNat 48 (s.param .unitAddress)

/-- LAN management, parameter 36 (R72). -/
def State.lanOn (s : State) : Bool := s.param .lanManagement == 1

/-! ## Counters (R215) -/

/-- The order of ports in the per-port counters (R215) and in GET_STATUS. -/
def Port.index : Port → Fin 6
  | .lan => 0
  | .wan => 1
  | .aIn => 2
  | .aOut => 3
  | .bIn => 4
  | .bOut => 5

/-- A counter's number in R215's table, less 1. -/
def Counter.index : Counter → Fin 51
  | .framesIn p => ⟨(Port.index p).val, by omega⟩
  | .framesOut p => ⟨6 + (Port.index p).val, by omega⟩
  | .rxError => 12
  | .txDrop => 13
  | .ccfPortDrop => 14
  | .ccfMalformed => 15
  | .discard => 16
  | .standbyEmit => 17
  | .entriesCreated => 18
  | .entriesPromoted => 19
  | .entriesFreed => 20
  | .tentativeCreated => 21
  | .tentativeExpired => 22
  | .untrackedSyn => 23
  | .aged => 24
  | .anomalies => 25
  | .declAccepted => 26
  | .refusedWrongRole => 27
  | .refusedBadRecord => 28
  | .refusedKeyClash => 29
  | .refusedTableFull => 30
  | .refusedBucketFull => 31
  | .dropMiss => 32
  | .declUnwalked => 33
  | .flushedIgnored => 34
  | .batchesSent => 35
  | .recordsAccepted => 36
  | .recordsRefused => 37
  | .batchTimeouts => 38
  | .strayAck => 39
  | .walks => 40
  | .roleMismatch => 41
  | .cutoversPlanned => 42
  | .cutoversUnplanned => 43
  | .cutoverAborts => 44
  | .releasedUnconfirmed => 45
  | .parked => 46
  | .released => 47
  | .parkDrop => 48
  | .parkDiscarded => 49
  | .reqOverflow => 50

/-- What a counter stands at. -/
def State.count (s : State) (c : Counter) : Nat := s.counters[c.index]

/-- A counter advanced by `n`; at 4,294,967,295 it stays (R215). -/
def State.add (s : State) (c : Counter) (n : Nat) : State :=
  { s with counters := s.counters.set c.index (min (s.count c + n) Config.counterMax) }

/-- A counter advanced by one. -/
def State.inc (s : State) (c : Counter) : State := s.add c 1

/-! ## Ports and transmit queues (R69, R70) -/

/-- A port's state. -/
def State.port (s : State) (p : Port) : PortState := s.ports.get p

/-- A port's state replaced. -/
def State.setPort (s : State) (p : Port) (x : PortState) : State := { s with ports := s.ports.set p x }

/-- R70: the port's link is UP and its queue has room, so a frame handed to it joins the tail. -/
def State.canHand (s : State) (p : Port) : Bool :=
  (s.port p).link == .up && decide ((s.port p).tx.length < Config.txDepth)

/-- R70: a frame is handed to a transmit queue: it joins the tail, or is dropped and counted in TX_DROP. -/
def State.handTx (s : State) (p : Port) (f : Frame) : State :=
  if s.canHand p then s.setPort p { s.port p with tx := (s.port p).tx ++ [f] } else s.inc .txDrop

/-! ## Roles (R134, R140) -/

/-- A firewall's health record. -/
def State.fw (s : State) (f : Fw) : HealthRecord := s.health.get f

/-- A firewall's health record replaced. -/
def State.setFw (s : State) (f : Fw) (h : HealthRecord) : State := { s with health := s.health.set f h }

/-- R122: a health state in which a firewall is usable. -/
def HealthState.usable : HealthState → Bool
  | .up => true
  | .suspect => true
  | _ => false

/-- The state is DOWN, whatever the reason. -/
def HealthState.isDown : HealthState → Bool
  | .down _ => true
  | _ => false

/-- R122: the firewall is usable. -/
def State.usable (s : State) (f : Fw) : Bool := (s.fw f).state.usable

/-- R140: the standby is the firewall that is not active, when it is usable. -/
def State.standby (s : State) : Option Fw :=
  if s.usable s.role.active.other then some s.role.active.other else none

/-- R134: a firewall's assigned role. -/
def State.assigned (s : State) (f : Fw) : RoleName :=
  if f = s.role.active then .active else if s.usable f then .standby else .none

/-- R89: the standby is ready. -/
def State.ready (s : State) : Bool :=
  match s.standby with
  | some f => s.mirror.target == some f && (s.fw f).state == .up && s.mirror.state == .streaming
  | none => false

/-- A timer is running. -/
def Timer.isRunning : Timer → Bool
  | .stopped => false
  | .running _ => true

/-- R139: a timer started with its parameter's value; the value 0 leaves it not running. -/
def Timer.start (period : Nat) : Timer := if period = 0 then .stopped else .running period

/-- R82, R157: the old active firewall while the late window of a planned cutover runs. -/
def State.oldActive (s : State) : Option Fw := if s.role.lateWindow.isRunning then s.role.source else none

/-! ## Codes (R188) -/

def Fw.code : Fw → Nat
  | .a => 1
  | .b => 2

def fwCode : Option Fw → Nat
  | none => 0
  | some f => Fw.code f

def RoleName.code : RoleName → Nat
  | .none => 0
  | .active => 1
  | .standby => 2

def CutPhase.code : CutPhase → Nat
  | .none => 0
  | .quiesce => 1
  | .transfer => 2
  | .settle => 3

def HealthState.code : HealthState → Nat
  | .absent => 0
  | .joining => 1
  | .up => 2
  | .suspect => 3
  | .down _ => 4

def DownReason.code : DownReason → Nat
  | .unfit => 1
  | .pulseLoss => 2
  | .link => 3

def CutKind.code : CutKind → Nat
  | .planned => 1
  | .unplanned => 2

def CutReason.code : CutReason → Nat
  | .failure => 1
  | .recovery => 2
  | .startup => 3
  | .switchover => 4
  | .preferred => 5
  | .fitness => 6

def RefusalReason.code : RefusalReason → Nat
  | .badRecord => 1
  | .keyClash => 2
  | .tableFull => 3
  | .bucketFull => 4

def SyncStatus.code : SyncStatus → Nat
  | .accept => 0
  | .refuseFull => 1
  | .refuseBad => 2

def Port.code (p : Port) : Nat := (Port.index p).val + 1

def Link.code : Link → Nat
  | .down => 0
  | .up => 1

def Family.code : Family → Nat
  | .v4 => 4
  | .v6 => 6

/-- R11, R188: the protocol number; ICMP echo is 1 over IPv4 and 58 over IPv6. -/
def Proto.code : Family → Proto → Nat
  | _, .tcp => 6
  | _, .udp => 17
  | .v4, .echo => 1
  | .v6, .echo => 58

def Phase.code : Phase → Nat
  | .free => 0
  | .tentative => 1
  | .live => 2
  | .retiring => 3

def Peer.code : Peer → Nat
  | .absent => 0
  | .current => 1
  | .behind => 2

def MirrorState.code : MirrorState → Nat
  | .idle => 0
  | .walking => 1
  | .streaming => 2
  | .stalled => 3
  | .pushing => 4

def FrameClass.code : FrameClass → Nat
  | .track => 0
  | .pass => 1
  | .shadow => 2
  | .discard => 3

def Status.code : Status → Nat
  | .ok => 0
  | .clamped => 1
  | .unknown => 2
  | .badArg => 3
  | .notPermitted => 4
  | .busy => 5
  | .notReady => 6

/-- R183: a kind's code. -/
def CcfKind.code : CcfKind → Byte
  | .pulse => 0x11
  | .role => 0x12
  | .declare => 0x21
  | .flushed => 0x22
  | .drain => 0x23
  | .sync => 0x31
  | .syncAck => 0x32
  | .notice => 0x41
  | .query => 0x51
  | .reply => 0x52

/-- An event's code less 1. -/
def EventId.index : EventId → Fin 16
  | .fwDown => 0
  | .fwUp => 1
  | .cutoverStart => 2
  | .cutoverEnd => 3
  | .cutoverAbort => 4
  | .dark => 5
  | .mirrorStalled => 6
  | .walkDone => 7
  | .declRefused => 8
  | .declGap => 9
  | .wrongRole => 10
  | .syncRefused => 11
  | .tableLevel => 12
  | .parkLevel => 13
  | .portLink => 14
  | .tentativeLimit => 15

/-! ## The frames the part builds (R183, R184) -/

/-- R183, R184: a CCF: addresses, EtherType, header, payload, zero padding to the 64-byte minimum, check sequence. -/
def ccfFrame (dst src : Mac) (kind : CcfKind) (flags count : Byte) (seq : Word16) (payload : List Byte) : Frame :=
  let body := beMac dst ++ beMac src ++ be2 Config.ccfType.toNat ++ [0x01#8, kind.code, flags, count] ++ be2 seq.toNat ++
    be2 payload.length ++ payload
  let padded := body ++ List.replicate (Config.minFrame - 4 - body.length) 0#8
  padded ++ fcsOf padded

/-- R133: a CCF to a firewall leaves by its IN port, to its learned address, from the unit address. -/
def State.sendTo (s : State) (f : Fw) (kind : CcfKind) (flags count : Byte) (seq : Word16) (payload : List Byte) : State :=
  s.handTx f.inPort (ccfFrame (s.fw f).learned s.unitAddress kind flags count seq payload)

/-- R135: the payload of a ROLE frame to a firewall. -/
def State.rolePayload (s : State) (f : Fw) : List Byte :=
  be1 (s.assigned f).code ++ be1 s.role.phase.code ++ beFlag s.ready ++ be2 s.role.epoch.toNat ++
    be1 (s.fw .a).state.code ++ be1 (s.fw .b).state.code

/-- R135: a ROLE frame to a firewall; its header sequence is that firewall's last pulse sequence. -/
def State.sendRole (s : State) (f : Fw) : State :=
  s.sendTo f .role 0#8 0#8 (s.fw f).lastSeq (s.rolePayload f)

/-- R141: after an event that began with phase `phase` and roles `roleA` and `roleB`, one ROLE frame goes to each
firewall whose assigned role changed, and to both when the phase changed; it carries the state the event left. -/
def State.sendRoleChanges (s : State) (phase : CutPhase) (roleA roleB : RoleName) : State :=
  let toA := phase != s.role.phase || roleA != s.assigned .a
  let toB := phase != s.role.phase || roleB != s.assigned .b
  let s1 := if toA then s.sendRole .a else s
  if toB then s1.sendRole .b else s1

/-- R141: an event of the Role Controller, with the ROLE frames its changes call for. -/
def State.asEvent (s : State) (body : State → State) : State :=
  (body s).sendRoleChanges s.role.phase (s.assigned .a) (s.assigned .b)

/-! ## Canonical keys (R11, R12) -/

/-- R188: the bytes of an address of the family. -/
def Family.addrBytes : Family → Nat
  | .v4 => 4
  | .v6 => 16

/-- The words of an address, most significant first: 2 for IPv4, 8 for IPv6. -/
def addrWords (fam : Family) (a : IpAddr) : List Word16 :=
  match fam with
  | .v4 => [a.extractLsb' 16 16, a.extractLsb' 0 16]
  | .v6 => [a.extractLsb' 112 16, a.extractLsb' 96 16, a.extractLsb' 80 16, a.extractLsb' 64 16,
      a.extractLsb' 48 16, a.extractLsb' 32 16, a.extractLsb' 16 16, a.extractLsb' 0 16]

/-- R12: the endpoint is the lower of the two, or equal: by address, then by port, as unsigned numbers. -/
def Endpoint.notAbove (x y : Endpoint) : Bool :=
  decide (x.addr.toNat < y.addr.toNat) || (x.addr == y.addr && decide (x.port.toNat ≤ y.port.toNat))

/-- R11: the first word of a key. -/
def keyHead (fam : Family) (pr : Proto) (side : Side) : Word16 :=
  BitVec.ofNat 16 ((fam.code + (if side = .outside then 0x80 else 0)) * 256 + Proto.code fam pr)

/-- R11: the canonical key of two endpoints, in whichever order they are given. -/
def keyOf (fam : Family) (pr : Proto) (side : Side) (x y : Endpoint) : Key :=
  let lo := if x.notAbove y then x else y
  let hi := if x.notAbove y then y else x
  keyHead fam pr side :: (addrWords fam lo.addr ++ lo.port :: (addrWords fam hi.addr ++ [hi.port]))

/-- The canonical key of a tuple. -/
def tupleKey (fam : Family) (pr : Proto) (side : Side) (t : Tuple) : Key := keyOf fam pr side t.loc t.rem

/-- R14: a key's bucket under a hash seed. -/
def bucketOf (seed : Nat) (k : Key) : Nat :=
  (k.foldl (· ^^^ ·) 0#16 ^^^ BitVec.ofNat 16 seed).toNat % Config.buckets

/-- R14: a key's bucket under the current hash seed. -/
def State.bucket (s : State) (k : Key) : Nat := bucketOf (s.param .hashSeed) k

/-! ## Entries (R1) -/

/-- The entry at a handle; none when it is FREE. -/
def State.entry? (s : State) (h : Nat) : Option Entry := SMap.get? s.table.entries h

/-- The handles of the entries that are not FREE, ascending. -/
def State.handles (s : State) : List Nat := s.table.entries.map (·.1)

/-- The entry at a handle replaced. -/
def State.setEntry (s : State) (h : Nat) (e : Entry) : State :=
  { s with table := { s.table with entries := SMap.put s.table.entries h e } }

/-- The entry at a handle changed; a FREE handle is left as it is. -/
def State.modifyEntry (s : State) (h : Nat) (g : Entry → Entry) : State :=
  match s.entry? h with
  | some e => s.setEntry h (g e)
  | none => s

def Entry.phase (e : Entry) : Phase :=
  match e.body with
  | .tentative => .tentative
  | .live _ _ _ => .live
  | .retiring _ _ _ => .retiring

/-- The phase of the entry at a handle. -/
def State.phase (s : State) (h : Nat) : Phase :=
  match s.entry? h with
  | some e => e.phase
  | none => .free

def Entry.isLive (e : Entry) : Bool := e.phase == .live

/-- The Mirror Engine's fields of an entry, present in LIVE and RETIRING. -/
def Entry.mirror? (e : Entry) : Option MirrorPart :=
  match e.body with
  | .tentative => none
  | .live _ m _ => some m
  | .retiring _ m _ => some m

/-- The fields present in LIVE alone. -/
def Entry.live? (e : Entry) : Option LivePart :=
  match e.body with
  | .live _ _ l => some l
  | _ => none

/-- The declared fields, present in LIVE and RETIRING. -/
def Entry.declared? (e : Entry) : Option Declared :=
  match e.body with
  | .tentative => none
  | .live d _ _ => some d
  | .retiring d _ _ => some d

/-- The blocks list, present in RETIRING. -/
def Entry.blocks (e : Entry) : List Nat :=
  match e.body with
  | .retiring _ _ bs => bs
  | _ => []

def Entry.mapMirror (e : Entry) (g : MirrorPart → MirrorPart) : Entry :=
  match e.body with
  | .tentative => e
  | .live d m l => { e with body := .live d (g m) l }
  | .retiring d m bs => { e with body := .retiring d (g m) bs }

def Entry.mapLive (e : Entry) (g : LivePart → LivePart) : Entry :=
  match e.body with
  | .live d m l => { e with body := .live d m (g l) }
  | _ => e

def Entry.mapBlocks (e : Entry) (g : List Nat → List Nat) : Entry :=
  match e.body with
  | .retiring d m bs => { e with body := .retiring d m (g bs) }
  | _ => e

/-- The entry is marked (LIVE alone). -/
def Entry.marked (e : Entry) : Bool :=
  match e.live? with
  | some l => l.marked
  | none => false

/-- The chain of parked frames (LIVE alone). -/
def Entry.chain (e : Entry) : List Parked :=
  match e.live? with
  | some l => l.chain
  | none => []

/-- The wait count (LIVE alone). -/
def Entry.waits (e : Entry) : Nat :=
  match e.live? with
  | some l => l.waits
  | none => 0

/-- The entry at a handle is LIVE and marked. -/
def State.isMarked (s : State) (h : Nat) : Bool :=
  match s.entry? h with
  | some e => e.marked
  | none => false

/-- The marked entries' handles, ascending. -/
def State.markedHandles (s : State) : List Nat := s.handles.filter s.isMarked

/-- R4: the lowest number at or above `n` that the table, from its head, does not list. -/
def lowestFree {α : Type} : SMap α → Nat → Nat
  | [], n => n
  | (k, _) :: t, n => if k = n then lowestFree t (n + 1) else n

/-- R4: the lowest free handle; none when the free set is empty. -/
def State.freeHandle (s : State) : Option Nat :=
  let n := lowestFree s.table.entries 0
  if n < Config.handles then some n else none

/-! ## The Key Index (R14 to R17) -/

/-- The place of an entry's slot in `Table.slots`. -/
def slotCode (h : Nat) : Side → Nat
  | .inside => 2 * h
  | .outside => 2 * h + 1

/-- R17: the occupied slots of a bucket, whatever the phase of their entries. -/
def State.bucketLoad (s : State) (b : Nat) : Nat :=
  (s.table.slots.filter (fun x => x.2.bucket == b)).length

/-- R17: the bucket has an empty slot. -/
def State.bucketRoom (s : State) (b : Nat) : Bool := decide (s.bucketLoad b < Config.slotsPerBucket)

/-- A key placed in an empty slot of its bucket, for a handle. -/
def State.placeKey (s : State) (h : Nat) (side : Side) (k : Key) : State :=
  { s with table := { s.table with slots := SMap.put s.table.slots (slotCode h side) { bucket := s.bucket k, key := k } } }

/-- The slots that refer to a handle emptied. -/
def State.emptySlots (s : State) (h : Nat) : State :=
  { s with table := { s.table with
      slots := SMap.del (SMap.del s.table.slots (slotCode h .inside)) (slotCode h .outside) } }

/-- The handles whose slots in the key's bucket hold the key, ascending. -/
def State.holders (s : State) (k : Key) : List Nat :=
  (s.table.slots.filter (fun x => x.2.bucket == s.bucket k && x.2.key == k)).map (fun x => x.1 / 2)

/-- The holder of a key whose entry is in the phase. -/
def State.holderIn (s : State) (k : Key) (ph : Phase) : Option Nat :=
  (s.holders k).find? (fun h => s.phase h == ph)

/-- R16: the holder of a key whose entry is TENTATIVE or LIVE; slots of RETIRING entries are passed over. -/
def State.lookup (s : State) (k : Key) : Option Nat :=
  (s.holders k).find? (fun h => s.phase h == .tentative || s.phase h == .live)

/-- An entry's outside key. -/
def Entry.outsideKey (e : Entry) : Key := tupleKey e.family e.proto .outside e.outside

/-! ## The Mirror Queue (R90, R91) -/

/-- R90: the ranks, RETIRE above DECLARE above REFRESH. -/
def RecKind.rank : RecKind → Nat
  | .refresh => 0
  | .declare => 1
  | .retire => 2

/-- R90: the higher-ranked of a new need and the kind already queued. -/
def RecKind.merge (k : RecKind) : Option RecKind → RecKind
  | none => k
  | some q => if q.rank < k.rank then k else q

/-- The lane an entry is in, if any. -/
def State.laneOf (s : State) (h : Nat) : Option Lane := (s.entry? h).bind (fun e => e.mirror?.bind (·.lane))

/-- The kind queued for an entry, if any. -/
def State.queuedOf (s : State) (h : Nat) : Option RecKind := (s.entry? h).bind (fun e => e.mirror?.bind (·.queued))

/-- The handle taken out of both lanes. -/
def Mirror.outOfLanes (m : Mirror) (h : Nat) : Mirror :=
  { m with urgent := m.urgent.filter (· != h), normal := m.normal.filter (· != h) }

/-- The entry leaves the Mirror Queue. -/
def State.unqueue (s : State) (h : Nat) : State :=
  { s with mirror := s.mirror.outOfLanes h }.modifyEntry h
    (·.mapMirror (fun m => { m with lane := none, queued := none }))

/-- The handle put at the head or the tail of a lane. -/
def Mirror.intoLane (m : Mirror) (h : Nat) (ln : Lane) (atHead : Bool) : Mirror :=
  match ln, atHead with
  | .urgent, true => { m with urgent := h :: m.urgent }
  | .urgent, false => { m with urgent := m.urgent ++ [h] }
  | .normal, true => { m with normal := h :: m.normal }
  | .normal, false => { m with normal := m.normal ++ [h] }

/-- The entry put at the head or the tail of a lane, out of the place it had, with the kind queued. -/
def State.lanePlace (s : State) (h : Nat) (ln : Lane) (atHead : Bool) (k : RecKind) : State :=
  { s with mirror := (s.mirror.outOfLanes h).intoLane h ln atHead }.modifyEntry h
    (·.mapMirror (fun m => { m with lane := some ln, queued := some k }))

/-- The kind queued for an entry replaced, its place kept. -/
def State.setQueued (s : State) (h : Nat) (k : RecKind) : State :=
  s.modifyEntry h (·.mapMirror (fun m => { m with queued := some k }))

/-- R91: needs of the entry go to URGENT: it is marked, or the phase is QUIESCE. -/
def State.wantsUrgent (s : State) (h : Nat) : Bool := s.isMarked h || s.role.phase == .quiesce

/-- R90, R91: a need arises for an entry. Any need that would go to URGENT moves an entry queued in NORMAL there, a REFRESH
need against a queued DECLARE among them: DEDUCED, log entry 35. -/
def State.raiseNeed (s : State) (h : Nat) (k : RecKind) : State :=
  match s.laneOf h with
  | none => s.lanePlace h (if s.wantsUrgent h then .urgent else .normal) false k
  | some .urgent => s.setQueued h (k.merge (s.queuedOf h))
  | some .normal =>
    if s.wantsUrgent h then s.lanePlace h .urgent false (k.merge (s.queuedOf h))
    else s.setQueued h (k.merge (s.queuedOf h))

/-- R91: a queued entry moved to the tail of URGENT, keeping its kind. -/
def State.toUrgentTail (s : State) (h : Nat) : State :=
  match s.queuedOf h with
  | some k => s.lanePlace h .urgent false k
  | none => s

/-- R91, R170: a queued entry moved to the head of URGENT, keeping its kind. -/
def State.toUrgentHead (s : State) (h : Nat) : State :=
  match s.queuedOf h with
  | some k => s.lanePlace h .urgent true k
  | none => s

end Machine

end Sys2Proof
end

