-- ==== Sys2Proof/Machine/Operands.lean ====
section
/-! DEFINITION. The operand forms: what the part reads in a received frame. A data frame's headers (R73 to R76), a CCF's
header and the checks it meets (R183 to R187), and a declaration record (R52, R53, R190). -/

namespace Sys2Proof.Machine

/-! ## Data frames (R73 to R76)
The layouts of the IP, TCP, UDP and ICMP headers are the Internet's own; the spec names their fields. Log entry 5. -/

/-- What the Sequence Tracker reads in a TCP segment (chapter 2). -/
structure Segment where
  seq : Seq32
  ack : Seq32
  window : Word16
  syn : Bool
  ackFlag : Bool
  rst : Bool
  fin : Bool
  wscale : Option Nat
  payload : Nat
deriving DecidableEq, Repr

/-- A frame that names a session: family, protocol, endpoints (R13), and its TCP segment. -/
structure SessionView where
  family : Family
  proto : Proto
  src : Endpoint
  dst : Endpoint
  seg : Option Segment
deriving DecidableEq, Repr

/-- What the classifier reads in a data frame: not IP (R74), PASS for what it cannot read (R73, R75, R76), or a session
for the Prefix Class Table. -/
inductive Reading where
  | nonIp
  | pass
  | session (v : SessionView)
deriving DecidableEq, Repr

/-- The shift count of a TCP window scale option among the option bytes; the first argument bounds the walk. -/
def windowScale : Nat → List Byte → Option Nat
  | 0, _ => none
  | _ + 1, [] => none
  | n + 1, k :: t =>
    if k = 0#8 then none
    else if k = 1#8 then windowScale n t
    else match t with
      | [] => none
      | len :: u =>
        if len.toNat < 2 then none
        else if k = 3#8 ∧ len = 3#8 then u.head?.map (·.toNat)
        else windowScale n (u.drop (len.toNat - 2))

/-- A TCP header's length in bytes, from its data offset. -/
def tcpHeader (t : List Byte) : Nat := ((byteAt t 12) >>> 4).toNat * 4

/-- The TCP segment in an IP payload. -/
def readSegment (t : List Byte) : Segment :=
  { seq := word32At t 4
    ack := word32At t 8
    window := word16At t 14
    syn := (byteAt t 13).getLsbD 1
    ackFlag := (byteAt t 13).getLsbD 4
    rst := (byteAt t 13).getLsbD 2
    fin := (byteAt t 13).getLsbD 0
    wscale := windowScale 40 ((t.take (tcpHeader t)).drop 20)
    payload := t.length - tcpHeader t }

/-- R76: the transport header of a readable IP frame; `t` is the IP payload from the transport header on. -/
def readTransport (fam : Family) (src dst : IpAddr) (protocol : Byte) (t : List Byte) : Reading :=
  let ports (pr : Proto) (a b : Word16) (seg : Option Segment) : Reading :=
    .session { family := fam, proto := pr, src := { addr := src, port := a }, dst := { addr := dst, port := b }, seg := seg }
  if protocol = 6#8 then
    if 20 ≤ t.length ∧ 20 ≤ tcpHeader t ∧ tcpHeader t ≤ t.length then
      ports .tcp (word16At t 0) (word16At t 2) (some (readSegment t))
    else .pass
  else if protocol = 17#8 then
    if 8 ≤ t.length then ports .udp (word16At t 0) (word16At t 2) none else .pass
  else if protocol = 1#8 ∧ fam = .v4 then
    if 8 ≤ t.length ∧ (byteAt t 0 = 8#8 ∨ byteAt t 0 = 0#8) then ports .echo (word16At t 4) (word16At t 4) none else .pass
  else if protocol = 58#8 ∧ fam = .v6 then
    if 8 ≤ t.length ∧ (byteAt t 0 = 128#8 ∨ byteAt t 0 = 129#8) then ports .echo (word16At t 4) (word16At t 4) none
    else .pass
  else .pass

/-- R75: an IPv4 frame; `p` is what follows the EtherType, check sequence excluded. -/
def readIpv4 (p : List Byte) : Reading :=
  let hdr := (byteAt p 0 &&& 0x0F#8).toNat * 4
  let total := (word16At p 2).toNat
  if byteAt p 0 >>> 4 = 4#8 ∧ 20 ≤ hdr ∧ hdr ≤ total ∧ total ≤ p.length then
    if word16At p 6 &&& 0x1FFF#16 = 0#16 then
      readTransport .v4 (ipAt p 12 4) (ipAt p 16 4) (byteAt p 9) ((p.take total).drop hdr)
    else .pass
  else .pass

/-- R75: the extension headers an IPv6 frame may carry. -/
def isExtension (n : Byte) : Bool := n == 0#8 || n == 43#8 || n == 44#8 || n == 60#8

/-- R75: the length of an extension header. -/
def extensionLength (n : Byte) (rest : List Byte) : Nat :=
  if n = 44#8 then 8 else ((byteAt rest 1).toNat + 1) * 8

/-- R75: the walk of the extension headers, at most as many as the first argument says; the protocol and what follows, or
none where the frame is PASS. -/
def walkExtensions : Nat → Byte → List Byte → Option (Byte × List Byte)
  | 0, n, rest => if isExtension n then none else some (n, rest)
  | k + 1, n, rest =>
    if isExtension n then
      if rest.length < extensionLength n rest then none
      else if n = 44#8 ∧ word16At rest 2 >>> 3 ≠ 0#16 then none
      else walkExtensions k (byteAt rest 0) (rest.drop (extensionLength n rest))
    else some (n, rest)

/-- R75: an IPv6 frame; `p` is what follows the EtherType, check sequence excluded. -/
def readIpv6 (p : List Byte) : Reading :=
  let plen := (word16At p 4).toNat
  if byteAt p 0 >>> 4 = 6#8 ∧ 40 + plen ≤ p.length then
    match walkExtensions 6 (byteAt p 6) ((p.drop 40).take plen) with
    | some (protocol, t) => readTransport .v6 (ipAt p 8 16) (ipAt p 24 16) protocol t
    | none => .pass
  else .pass

/-- R73 to R76: what the classifier reads in a data frame. -/
def readFrame (f : Frame) : Reading :=
  match etherOffset f with
  | none => .pass
  | some o =>
    let p := (withoutFcs f).drop (o + 2)
    if word16At f o = 0x0800#16 then readIpv4 p
    else if word16At f o = 0x86DD#16 then readIpv6 p
    else .nonIp

/-- R13: the side of the port a frame arrived at. -/
def portSide (p : Port) : Side := if p.outside then .outside else .inside

/-- R13: a data frame's lookup key. -/
def frameKey (p : Port) (v : SessionView) : Key := keyOf v.family v.proto (portSide p) v.src v.dst

/-! ## CCF header (R183) -/

/-- A received CCF: source address, the header's fields, and the bytes between header and check sequence. -/
structure Ccf where
  source : Mac
  version : Byte
  kind : Byte
  flags : Byte
  records : Nat
  seq : Word16
  length : Nat
  rest : List Byte
deriving DecidableEq, Repr

/-- R183: the fields of an untagged CCF, at their offsets after the EtherType. -/
def readCcf (f : Frame) : Ccf :=
  { source := macAt f 6
    version := byteAt f 14
    kind := byteAt f 15
    flags := byteAt f 16
    records := (byteAt f 17).toNat
    seq := word16At f 18
    length := (word16At f 20).toNat
    rest := (withoutFcs f).drop 22 }

/-- R185: the owner reads only the payload-length bytes of the payload. -/
def Ccf.payload (c : Ccf) : List Byte := c.rest.take c.length

/-- R183: the kind a code names. -/
def kindOf (b : Byte) : Option CcfKind :=
  if b = 0x11#8 then some .pulse
  else if b = 0x12#8 then some .role
  else if b = 0x21#8 then some .declare
  else if b = 0x22#8 then some .flushed
  else if b = 0x23#8 then some .drain
  else if b = 0x31#8 then some .sync
  else if b = 0x32#8 then some .syncAck
  else if b = 0x41#8 then some .notice
  else if b = 0x51#8 then some .query
  else if b = 0x52#8 then some .reply
  else none

/-- R186: the kind is taken at the port. -/
def State.takenAt (s : State) (k : CcfKind) (p : Port) : Bool :=
  match k with
  | .pulse => p == .aIn || p == .bIn
  | .declare => p == .aIn || p == .bIn
  | .flushed => p == .aIn || p == .bIn
  | .syncAck =>
    match s.mirror.target with
    | some f => p == f.inPort
    | none => false
  | .query => p == .aIn || p == .bIn || p == .lan
  | .role => false
  | .drain => false
  | .sync => false
  | .notice => false
  | .reply => false

/-- R187: the body check of a kind passes. -/
def bodyOk (k : CcfKind) (c : Ccf) : Bool :=
  match k with
  | .pulse => decide (2 ≤ c.length) && decide ((byteAt c.payload 0).toNat ≤ 2) && decide ((byteAt c.payload 1).toNat ≤ 15)
  | .syncAck => decide (c.records ≤ c.length)
  | .query => decide (1 ≤ c.length)
  | _ => true

/-- R185: the five checks in order; the kind of a CCF that passes them all. -/
def State.ccfCheck (s : State) (p : Port) (c : Ccf) : Option CcfKind :=
  if c.version ≠ 1#8 then none
  else match kindOf c.kind with
    | none => none
    | some k =>
      if !s.takenAt k p then none
      else if c.rest.length < c.length then none
      else if !bodyOk k c then none
      else some k

/-- R72: the port gate takes a CCF at the port. -/
def State.gateTakes (s : State) (p : Port) : Bool :=
  match p with
  | .aIn => true
  | .bIn => true
  | .lan => s.lanOn
  | .wan => false
  | .aOut => false
  | .bOut => false

/-! ## Declaration records (R52, R53, R190) -/

/-- R188: the family a code names. -/
def familyOf (b : Byte) : Option Family :=
  if b = 4#8 then some .v4 else if b = 6#8 then some .v6 else none

/-- R53: the protocol a code names, of those the family allows. -/
def protoOf (fam : Family) (b : Byte) : Option Proto :=
  if b = 6#8 then some .tcp
  else if b = 17#8 then some .udp
  else match fam with
    | .v4 => if b = 1#8 then some .echo else none
    | .v6 => if b = 58#8 then some .echo else none

/-- R188: the size of a tuple of the family. -/
def Family.tupleBytes : Family → Nat
  | .v4 => 12
  | .v6 => 36

/-- R188: a tuple, its local endpoint first. -/
def readTuple (fam : Family) (bs : List Byte) : Tuple :=
  { loc := { addr := ipAt bs 0 fam.addrBytes, port := word16At bs fam.addrBytes }
    rem := { addr := ipAt bs (fam.addrBytes + 2) fam.addrBytes, port := word16At bs (2 * fam.addrBytes + 2) } }

/-- R190: the blob length a record states. -/
def declBlob (bs : List Byte) : Nat := (word16At bs 10).toNat

/-- R52, R190: a record's length without its blob: 36 bytes for IPv4, 84 for IPv6. -/
def Family.declFixed (fam : Family) : Nat := 12 + 2 * fam.tupleBytes

/-- R52: the length by which the walk steps over the record at the head of the bytes; none where it cannot be stepped
over. -/
def declStep (bs : List Byte) : Option Nat :=
  match familyOf (byteAt bs 1) with
  | none => none
  | some fam =>
    if bs.length < fam.declFixed then none
    else if bs.length < fam.declFixed + declBlob bs then none
    else some (fam.declFixed + declBlob bs)

/-- R190: the scale pair a record carries, if it carries one. -/
def declScales (bs : List Byte) : Option (Nat × Nat) :=
  if (byteAt bs 5).getLsbD 0 then some ((byteAt bs 6).toNat, (byteAt bs 7).toNat) else none

/-- A declaration record read whole: its action is PUT or DROP and every value is one R53 allows. -/
structure DeclRecord where
  put : Bool
  family : Family
  proto : Proto
  agingClass : Fin 4
  fwState : Nat
  scales : Option (Nat × Nat)
  initiator : Initiator
  policy : Word16
  inside : Tuple
  outside : Tuple
  blob : List Byte
deriving DecidableEq, Repr

/-- R190: the inside tuple of the record at the head of the bytes. -/
def declInside (fam : Family) (bs : List Byte) : Tuple := readTuple fam (bs.drop 12)

/-- R190: the outside tuple of the record at the head of the bytes. -/
def declOutside (fam : Family) (bs : List Byte) : Tuple := readTuple fam (bs.drop (12 + fam.tupleBytes))

/-- R53: an ICMP-echo tuple carries its echo identifier in both ports. -/
def echoPortsOk (pr : Proto) (t : Tuple) : Bool := pr != .echo || t.loc.port == t.rem.port

/-- R53, R190: the record at the head of the bytes, if its form is good. -/
def readDecl (bs : List Byte) : Option DeclRecord :=
  match familyOf (byteAt bs 1) with
  | none => none
  | some fam =>
    match protoOf fam (byteAt bs 2) with
    | none => none
    | some pr =>
      if (byteAt bs 0 = 1#8 ∨ byteAt bs 0 = 2#8) ∧ declBlob bs ≤ 64 ∧ declBlob bs % 4 = 0 ∧ (byteAt bs 4).toNat ≤ 15 ∧
          echoPortsOk pr (declInside fam bs) = true ∧ echoPortsOk pr (declOutside fam bs) = true ∧
          fam.declFixed + declBlob bs ≤ bs.length then
        if hc : (byteAt bs 3).toNat < 4 then
          some
            { put := byteAt bs 0 == 1#8
              family := fam
              proto := pr
              agingClass := ⟨(byteAt bs 3).toNat, hc⟩
              fwState := (byteAt bs 4).toNat
              scales := declScales bs
              initiator := if (byteAt bs 5).getLsbD 1 then .rem else .loc
              policy := word16At bs 8
              inside := declInside fam bs
              outside := declOutside fam bs
              blob := (bs.drop fam.declFixed).take (declBlob bs) }
        else none
      else none

/-- R54: the outside key reported for a record refused BAD_RECORD; absent when the family or protocol is bad or the
outside tuple does not lie wholly within the payload. -/
def badRecordKey (bs : List Byte) : Option Key :=
  match familyOf (byteAt bs 1) with
  | none => none
  | some fam =>
    match protoOf fam (byteAt bs 2) with
    | none => none
    | some pr =>
      if bs.length < fam.declFixed then none else some (tupleKey fam pr .outside (declOutside fam bs))

end Sys2Proof.Machine
end

