-- ==== Sys2Proof/WellFormed.lean ====
section
/-! DEFINITION. Which commands are well formed: a frame command's frame is one of the row it stands for, whatever the
state. A frame command that is not well formed still runs: the part acts on what the frame's bytes say (log entry 2). -/

namespace Sys2Proof

open Machine

/-- R68, R71, R183: the frame is one a port takes, an untagged CCF, of the kind. -/
def isCcfOf (k : CcfKind) (f : Frame) : Bool :=
  frameOk f && isCcf f && isUntagged f && (readCcf f).kind == k.code

/-- The command is well formed. -/
def Instr.wf : Instr → Bool
  | .rxError _ f => !frameOk f
  | .dataFrame _ f => frameOk f && !isCcf f
  | .pulse _ f => isCcfOf .pulse f
  | .declare _ f => isCcfOf .declare f
  | .flushed _ f => isCcfOf .flushed f
  | .syncAck _ f => isCcfOf .syncAck f
  | .query _ f => isCcfOf .query f
  | .refusedCcf _ f => frameOk f && isCcf f
  | .reset => true
  | .linkUp _ => true
  | .linkDown _ => true
  | .transmitFrame _ => true
  | .releaseTurn => true
  | .packBatch => true
  | .walkCursorStep => true
  | .pulseTimerExpiry _ => true
  | .classSweepExpiry _ => true
  | .tentativeSweepExpiry => true
  | .confirmSweepExpiry => true
  | .parkSweepExpiry => true
  | .restartHoldExpiry => true
  | .startupWaitExpiry => true
  | .holdDownExpiry => true
  | .fitnessDwellExpiry => true
  | .quiesceTimerExpiry => true
  | .lateWindowExpiry => true
  | .cutoverLimitExpiry => true
  | .getParam => true
  | .setParam => true
  | .getStatus => true
  | .getEntry => true
  | .findEntry => true
  | .list => true
  | .getCounters => true
  | .getEvents => true
  | .clearEvents => true
  | .setPrefix => true
  | .getPrefix => true
  | .switchover => true
  | .resync => true
  | .purge => true
  | .tableReset => true
  | .unknownRequest => true

end Sys2Proof
end

