-- ==== Sys2Proof/Machine/Flags.lean ====
section
/-! DEFINITION. The latched flags: the sixteen event flags with the NOTICE frames their setting sends (R210 to R212), and
the six level flags (R6, R181). -/

namespace Sys2Proof.Machine

/-! ## Event flags (R210) -/

/-- An event's flag and occurrence count. -/
def State.event (s : State) (ev : EventId) : EventState := s.events[ev.index]

/-- The occurrence count after one occurrence more: 1 from clear, else one more, saturating at 65,535. -/
def EventState.next (e : EventState) : EventState :=
  if e.flag then { flag := true, count := min (e.count + 1) 65535 } else { flag := true, count := 1 }

/-- R211: the event's bit is set in the notice enable set. -/
def State.noticeEnabled (s : State) (ev : EventId) : Bool := (s.param .noticeEnable).testBit ev.index.val

/-- R211: the ports a NOTICE goes to: those of the notice target set, LAN only with LAN management on. -/
def State.noticePorts (s : State) : List Port :=
  (if (s.param .noticeTargets).testBit 0 then [Port.aIn] else []) ++
  (if (s.param .noticeTargets).testBit 1 then [Port.bIn] else []) ++
  (if (s.param .noticeTargets).testBit 2 && s.lanOn then [Port.lan] else [])

/-- R192: the address of a NOTICE's copy: the firewall's learned address at an IN port, broadcast at LAN. -/
def State.noticeDst (s : State) (p : Port) : Mac :=
  match p.inOf? with
  | some f => (s.fw f).learned
  | none => Config.broadcast

/-- R192: a NOTICE frame out of a port, with the occurrence count in its header sequence. -/
def State.noticeFrame (s : State) (p : Port) (ev : EventId) (params : List Byte) : Frame :=
  ccfFrame (s.noticeDst p) s.unitAddress .notice 0#8 0#8 (BitVec.ofNat 16 (s.event ev).count)
    (be1 (ev.index.val + 1) ++ be1 params.length ++ params)

/-- A NOTICE copy handed to each port. -/
def State.sendNotices (s : State) (ps : List Port) (ev : EventId) (params : List Byte) : State :=
  ps.foldl (fun t p => t.handTx p (t.noticeFrame p ev params)) s

/-- The event's flag set and its count advanced. -/
def State.latch (s : State) (ev : EventId) : State :=
  { s with events := s.events.set ev.index (s.event ev).next }

/-- R211: the ports the NOTICE of this occurrence goes to: none when the flag was already set or the event is disabled. -/
def State.occurrencePorts (s : State) (ev : EventId) : List Port :=
  if (s.event ev).flag then [] else if s.noticeEnabled ev then s.noticePorts else []

/-- R210, R211: one occurrence of an event. -/
def State.raise (s : State) (ev : EventId) (params : List Byte) : State :=
  (s.latch ev).sendNotices (s.occurrencePorts ev) ev params

/-- R49, R212: one occurrence of WRONG_ROLE; the sender's IN port gets one copy in every case. -/
def State.raiseWrongRole (s : State) (sender : Fw) (params : List Byte) : State :=
  let ps := s.occurrencePorts .wrongRole
  let ps := if ps.contains sender.inPort then ps else ps ++ [sender.inPort]
  (s.latch .wrongRole).sendNotices ps .wrongRole params

/-! ## Level flags (R6, R181) -/

def Levels.get (l : Levels) : Fin 3 → Bool
  | 0 => l.l1
  | 1 => l.l2
  | 2 => l.l3

def Levels.set (l : Levels) (n : Fin 3) (b : Bool) : Levels :=
  match n with
  | 0 => { l with l1 := b }
  | 1 => { l with l2 := b }
  | 2 => { l with l3 := b }

/-- R6: table level n is reached. -/
def State.tableReached (s : State) (n : Fin 3) : Bool :=
  decide (s.param (.tableLevel n) * Config.handles ≤ s.table.occupancy * 100)

/-- R181: park level n is reached. -/
def State.parkReached (s : State) (n : Fin 3) : Bool :=
  decide (s.param (.parkLevel n) * Config.cells ≤ s.park.cellsInUse * 100)

/-- R6: the comparison with one table level. -/
def State.compareTableLevel (s : State) (n : Fin 3) : State :=
  if s.tableReached n && !s.table.levels.get n then
    { s with table := { s.table with levels := s.table.levels.set n true } }.raise .tableLevel
      (be1 (n.val + 1) ++ be2 s.table.occupancy)
  else s

/-- R6: the table occupancy has changed and is compared with the three table levels, level 1 first: DESIGN CHOICE, log
entry 30. -/
def State.compareTable (s : State) : State :=
  ((s.compareTableLevel 0).compareTableLevel 1).compareTableLevel 2

/-- R181: the comparison with one park level. -/
def State.compareParkLevel (s : State) (n : Fin 3) : State :=
  if s.parkReached n && !s.park.levels.get n then
    { s with park := { s.park with levels := s.park.levels.set n true } }.raise .parkLevel
      (be1 (n.val + 1) ++ be2 s.park.cellsInUse)
  else s

/-- R181: the cells in use have changed and are compared with the three park levels, level 1 first: DESIGN CHOICE, log
entry 30. -/
def State.comparePark (s : State) : State :=
  ((s.compareParkLevel 0).compareParkLevel 1).compareParkLevel 2

/-- R201: after GET_STATUS has built its results, each level flag whose occupancy is below its level is cleared. -/
def State.clearLevels (s : State) : State :=
  { s with
    table := { s.table with levels :=
      { l1 := s.table.levels.l1 && s.tableReached 0
        l2 := s.table.levels.l2 && s.tableReached 1
        l3 := s.table.levels.l3 && s.tableReached 2 } }
    park := { s.park with levels :=
      { l1 := s.park.levels.l1 && s.parkReached 0
        l2 := s.park.levels.l2 && s.parkReached 1
        l3 := s.park.levels.l3 && s.parkReached 2 } } }

end Sys2Proof.Machine
end

