-- ==== Sys2Proof/Machine/Table.lean ====
section
/-! DEFINITION. The Session Table's changes of phase (chapter 1): the starting values of R2, freeing (R8), retiring (R7),
the waits behind RETIRING entries (R62), and the discard of a chain (R177). -/

namespace Sys2Proof.Machine

/-! ## Starting values (R2) -/

def DirEdges.invalid : DirEdges := { hiSeq := none, hiAck := none, maxWin := none }

/-- R2: the TCP tracking fields of a new entry. -/
def Tracking.fresh : Tracking :=
  { out := .invalid, inn := .invalid, scaleOut := 0, scaleIn := 0, scaleKnown := false, anomalies := 0 }

def MirDir.invalid : MirDir := { hiSeq := none, hiAck := none }

def MirEdges.invalid : MirEdges := { out := .invalid, inn := .invalid }

/-- R2: the Mirror Engine's fields of an entry that becomes LIVE. -/
def MirrorPart.fresh (pr : Proto) : MirrorPart :=
  { edges := if pr = .tcp then some .invalid else none, peer := .absent, lane := none, queued := none, walk := false,
    inflight := none }

/-- R2: the LIVE fields of an entry that becomes LIVE. -/
def LivePart.fresh : LivePart := { waits := 0, unprotected := false, marked := false, chain := [], chainAge := 0 }

/-! ## Cells and chains (R166, R167, R177) -/

/-- R167: the cells a frame occupies. -/
def cellsOf (f : Frame) : Nat := (f.length + (Config.cellBytes - 1)) / Config.cellBytes

/-- R167: a frame leaves its chain: its cells are freed, cells in use and frames held fall, and the levels are compared. -/
def State.freeCells (s : State) (p : Parked) : State :=
  { s with park := { s.park with cellsInUse := s.park.cellsInUse - p.cells, framesHeld := s.park.framesHeld - 1 } }.comparePark

/-- The entry leaves the Release Queue. -/
def State.leaveRelease (s : State) (h : Nat) : State :=
  { s with park := { s.park with releaseQueue := s.park.releaseQueue.filter (· != h) } }

/-- R177: parked frames discarded, each counted in PARK_DISCARDED. -/
def State.discardFrames (s : State) (ps : List Parked) : State :=
  ps.foldl (fun t p => (t.freeCells p).inc .parkDiscarded) s

/-- R177: every frame of an entry's chain is discarded and the entry leaves the Release Queue. The chain age stays: R175
names no discard among the changes that set it. -/
def State.discardChain (s : State) (h : Nat) : State :=
  match s.entry? h with
  | some e =>
    ((s.discardFrames e.chain).modifyEntry h (·.mapLive (fun l => { l with chain := [] }))).leaveRelease h
  | none => s

/-! ## Marks and waits -/

/-- R159: in TRANSFER a marked count of 0 moves the phase to SETTLE; tested at each clearing of a mark. -/
def State.toSettle (s : State) : State :=
  if s.role.phase = .transfer ∧ s.role.marked = 0 then { s with role := { s.role with phase := .settle } } else s

/-- R155: an entry's mark, if set, is cleared and the marked count falls by one. -/
def State.unmark (s : State) (h : Nat) : State :=
  if s.isMarked h then
    ({ s with role := { s.role with marked := s.role.marked - 1 } }.modifyEntry h
      (·.mapLive (fun l => { l with marked := false }))).toSettle
  else s

/-- R62: the RETIRING entries that hold one of two keys, each once, ascending. -/
def State.retiringHolders (s : State) (k1 k2 : Key) : List Nat :=
  s.handles.filter (fun g => s.phase g == .retiring && ((s.holders k1).contains g || (s.holders k2).contains g))

/-- R62: an entry's blocks lists joined and left so that it waits behind exactly the handles given. A handle that joins a
list stands last in it, and one that stays keeps its place: DESIGN CHOICE, log entry 28. -/
def blocksFor (h : Nat) (ws : List Nat) (g : Nat) (bs : List Nat) : List Nat :=
  if ws.contains g then (if bs.contains h then bs else bs ++ [h]) else bs.filter (· != h)

/-- Every blocks list rewritten by handle. -/
def State.mapAllBlocks (s : State) (g : Nat → List Nat → List Nat) : State :=
  { s with table := { s.table with entries := s.table.entries.map (fun x => (x.1, x.2.mapBlocks (g x.1))) } }

/-- R62: the entry waits behind exactly the RETIRING entries given, and its wait count is their number. -/
def State.setWaits (s : State) (h : Nat) (ws : List Nat) : State :=
  (s.mapAllBlocks (blocksFor h ws)).modifyEntry h (·.mapLive (fun l => { l with waits := ws.length }))

/-- R7, R8: the entry leaves every blocks list it is in. -/
def State.leaveBlocks (s : State) (h : Nat) : State := s.mapAllBlocks (fun _ bs => bs.filter (· != h))

/-- R8: a RETIRING entry is freed, and each entry it blocks loses one wait. -/
def State.releaseWaiters (s : State) (bs : List Nat) : State :=
  bs.foldl (fun t g => t.modifyEntry g (·.mapLive (fun l => { l with waits := l.waits - 1 }))) s

/-- R115: an entry's walk flag, if set, is cleared and walk_pending falls by one. -/
def State.settleWalk (s : State) (h : Nat) : State :=
  match (s.entry? h).bind Entry.mirror? with
  | some m =>
    if m.walk then
      { s with mirror := { s.mirror with walkPending := s.mirror.walkPending - 1 } }.modifyEntry h
        (·.mapMirror (fun m => { m with walk := false }))
    else s
  | none => s

/-! ## Freeing and retiring (R7, R8, R95) -/

/-- R8: the entry's slots are emptied, its fields discarded, its handle returned; the counts fall and are compared. -/
def State.removeEntry (s : State) (h : Nat) (e : Entry) : State :=
  let s1 := s.emptySlots h
  let s2 := { s1 with table := { s1.table with
      entries := SMap.del s1.table.entries h
      occupancy := s1.table.occupancy - 1
      tentative := if e.phase = Phase.tentative then s1.table.tentative - 1 else s1.table.tentative } }
  (s2.inc .entriesFreed).compareTable

/-- R8: an entry is freed, with every change that goes with it. -/
def State.freeEntry (s : State) (h : Nat) : State :=
  match s.entry? h with
  | none => s
  | some e =>
    let s1 := s.releaseWaiters e.blocks
    let s2 := if e.waits = 0 then s1 else s1.leaveBlocks h
    ((((s2.unqueue h).settleWalk h).discardChain h).unmark h).removeEntry h e

/-- A list of handles freed one after another. -/
def State.freeAll (s : State) (hs : List Nat) : State := hs.foldl State.freeEntry s

/-- R2: a LIVE entry's fields as RETIRING keeps them, the blocks list empty. -/
def Entry.toRetiring (e : Entry) : Entry :=
  match e.body with
  | .live d m _ => { e with body := .retiring d m [] }
  | _ => e

/-- R7, R95: a LIVE entry the target may hold becomes RETIRING. -/
def State.becomeRetiring (s : State) (h : Nat) (e : Entry) : State :=
  let s1 := if e.waits = 0 then s else s.leaveBlocks h
  let s2 := ((s1.discardChain h).unmark h).modifyEntry h Entry.toRetiring
  match s2.laneOf h with
  | some _ => s2.setQueued h .retire
  | none => s2.lanePlace h (if e.marked || s.role.phase == .quiesce then .urgent else .normal) false .retire

/-- R7: the mirror target may hold the entry. -/
def Entry.mayBeHeld (e : Entry) : Bool :=
  match e.mirror? with
  | some m => m.peer != .absent || m.inflight.isSome
  | none => false

/-- R7: a retire of the entry at a handle. -/
def State.retire (s : State) (h : Nat) : State :=
  match s.entry? h with
  | none => s
  | some e =>
    match e.phase with
    | .tentative => s.freeEntry h
    | .live => if e.mayBeHeld then s.becomeRetiring h e else s.freeEntry h
    | .retiring => s
    | .free => s

/-! ## New entries (R4, R5, R9, R19) -/

/-- R4, R5: an entry listed at a free handle: the table occupancy rises, and the tentative count for a TENTATIVE one. -/
def State.addEntry (s : State) (h : Nat) (e : Entry) : State :=
  { s with table := { s.table with
      entries := SMap.put s.table.entries h e
      occupancy := s.table.occupancy + 1
      tentative := if e.phase = Phase.tentative then s.table.tentative + 1 else s.table.tentative } }

end Sys2Proof.Machine
end

