-- ==== Sys2Proof/Machine/Sequence.lean ====
section
/-! DEFINITION. Sequence Tracking (chapter 2): the steps of one segment, drift, and the REFRESH request the Mirror Engine
judges (R94). -/

namespace Sys2Proof.Machine

/-! ## Edges by direction -/

def Dir.other : Dir → Dir
  | .out => .inn
  | .inn => .out

def Tracking.dir (t : Tracking) : Dir → DirEdges
  | .out => t.out
  | .inn => t.inn

def Tracking.setDir (t : Tracking) (d : Dir) (x : DirEdges) : Tracking :=
  match d with
  | .out => { t with out := x }
  | .inn => { t with inn := x }

def Tracking.scale (t : Tracking) : Dir → Nat
  | .out => t.scaleOut
  | .inn => t.scaleIn

def Tracking.setScale (t : Tracking) (d : Dir) (k : Nat) : Tracking :=
  match d with
  | .out => { t with scaleOut := k }
  | .inn => { t with scaleIn := k }

def MirEdges.dir (m : MirEdges) : Dir → MirDir
  | .out => m.out
  | .inn => m.inn

/-- Serial comparison (00_scope.md): a is after b. -/
def isAfter (a b : Seq32) : Bool := decide (1 ≤ (a - b).toNat) && decide ((a - b).toNat < 2147483648)

/-! ## The steps of one segment (R32 to R42) -/

/-- R33: the length of a segment. -/
def Segment.len (g : Segment) : Nat := g.payload + (if g.syn then 1 else 0) + (if g.fin then 1 else 0)

/-- R33: the end of a segment. -/
def Segment.endSeq (g : Segment) : Seq32 := g.seq + BitVec.ofNat 32 g.len

/-- R34: a scale is stored as at most 14. -/
def capScale (k : Nat) : Nat := min k 14

/-- R34: the window of a segment of direction d. -/
def segWindow (t : Tracking) (d : Dir) (g : Segment) : Seq32 :=
  BitVec.ofNat 32 (min Config.windowCap
    (if g.syn then g.window.toNat
     else if t.scaleKnown then g.window.toNat * 2 ^ t.scale d
     else g.window.toNat * 2 ^ 14))

/-- R38: the receiver window of direction o. -/
def Tracking.rwin (t : Tracking) (o : Dir) : Seq32 :=
  match (t.dir o).maxWin with
  | some w => w
  | none => if t.scaleKnown then 65535#32 else BitVec.ofNat 32 Config.windowCap

/-- R39: the right edge for a segment of direction d, if there is one. -/
def Tracking.rightEdge (t : Tracking) (d : Dir) : Option Seq32 :=
  match (t.dir d.other).hiAck with
  | some a => some (a + t.rwin d.other)
  | none => (t.dir d).hiSeq.map (· + t.rwin d.other)

/-- R39, R40: what step 3 finds. -/
inductive SeqResult where
  | outOfWindow
  | advanced (e : Seq32)
  | unmoved
deriving DecidableEq, Repr

/-- R39, R40: step 3, the check of a segment's end and the new hi_seq. -/
def Tracking.seqCheck (t : Tracking) (d : Dir) (e : Seq32) : SeqResult :=
  match t.rightEdge d with
  | none => .advanced e
  | some re =>
    if isAfter e re then .outOfWindow
    else match (t.dir d).hiSeq with
      | none => .advanced e
      | some q => if isAfter e q then .advanced e else .unmoved

/-- R42: one anomaly more, saturating at 255. -/
def Tracking.anomaly (t : Tracking) : Tracking := { t with anomalies := min (t.anomalies + 1) 255 }

/-- R36: step 4, the window scale option of a SYN segment. -/
def Tracking.synScale (t : Tracking) (d : Dir) (g : Segment) : Tracking :=
  if !g.syn || t.scaleKnown then t
  else match g.wscale with
    | some k => { t.setScale d (capScale k) with scaleKnown := g.ackFlag }
    | none => { t with scaleOut := 0, scaleIn := 0, scaleKnown := true }

/-- R41: the acknowledgement is out of window: it is after what the opposite direction has sent. -/
def Tracking.ackBeyond (t : Tracking) (d : Dir) (a : Seq32) : Bool :=
  match (t.dir d.other).hiSeq with
  | some q => isAfter a q
  | none => false

/-- R41: step 5; the flag says whether an anomaly was counted. -/
def Tracking.ackStep (t : Tracking) (d : Dir) (g : Segment) : Tracking × Bool :=
  if !g.ackFlag then (t, false)
  else if t.ackBeyond d g.ack then (t.anomaly, true)
  else match (t.dir d).hiAck with
    | none => (t.setDir d { t.dir d with hiAck := some g.ack }, false)
    | some q => if isAfter g.ack q then (t.setDir d { t.dir d with hiAck := some g.ack }, false) else (t, false)

/-- R35: step 6, the window learned. -/
def Tracking.windowStep (t : Tracking) (d : Dir) (g : Segment) : Tracking :=
  let w := segWindow t d g
  match (t.dir d).maxWin with
  | none => t.setDir d { t.dir d with maxWin := some w }
  | some v => if v.toNat < w.toNat then t.setDir d { t.dir d with maxWin := some w } else t

/-- What one segment does to an entry's tracking fields. -/
structure SegmentResult where
  tracking : Tracking
  anomaly : Bool
  moved : Bool
deriving DecidableEq, Repr

/-- R32: steps 4 to 6 of a segment that passed step 3. -/
def Tracking.learn (t : Tracking) (d : Dir) (g : Segment) (moved : Bool) : SegmentResult :=
  let (t1, bad) := (t.synScale d g).ackStep d g
  { tracking := t1.windowStep d g, anomaly := bad, moved := moved }

/-- R32: steps 1 to 6 of a tracked segment. -/
def Tracking.segment (t : Tracking) (d : Dir) (g : Segment) : SegmentResult :=
  if g.rst then { tracking := t, anomaly := false, moved := false }
  else match t.seqCheck d g.endSeq with
    | .outOfWindow => { tracking := t.anomaly, anomaly := true, moved := false }
    | .advanced e => (t.setDir d { t.dir d with hiSeq := some e }).learn d g true
    | .unmoved => t.learn d g false

/-- R37: a declaration's scale pair applied. -/
def Tracking.applyScales (t : Tracking) (p : Nat × Nat) : Tracking :=
  { t with
    scaleOut := capScale p.1
    scaleIn := capScale p.2
    scaleKnown := true
    out := { t.out with maxWin := none }
    inn := { t.inn with maxWin := none } }

/-- R37: the scale pair applied when the record carries one. -/
def Tracking.withScales (t : Tracking) : Option (Nat × Nat) → Tracking
  | some p => t.applyScales p
  | none => t

/-- R58: every edge valid flag is clear. -/
def Tracking.noEdges (t : Tracking) : Bool := t.out == .invalid && t.inn == .invalid

/-- R58: OUT and IN change places. -/
def Tracking.swapped (t : Tracking) : Tracking :=
  { t with out := t.inn, inn := t.out, scaleOut := t.scaleIn, scaleIn := t.scaleOut }

/-! ## Drift (R43 to R45) -/

/-- R43: the drift of an edge; `none` is unbounded drift. -/
def edgeDrift (live mirrored : Option Seq32) : Option Nat :=
  match live, mirrored with
  | none, _ => some 0
  | some _, none => none
  | some l, some m => some (if isAfter l m then (l - m).toNat else 0)

/-- R44: the drift of hi_seq in direction d is over the REFRESH threshold. -/
def overThreshold (t : Tracking) (m : MirEdges) (d : Dir) : Bool :=
  match edgeDrift (t.dir d).hiSeq (m.dir d).hiSeq with
  | none => true
  | some n => decide ((t.rwin d.other).toNat / 2 < n)

/-- R45: the hi_seq and hi_ack edges of the live tracking, in the mirrored edges' form. -/
def Tracking.snapshot (t : Tracking) : MirEdges :=
  { out := { hiSeq := t.out.hiSeq, hiAck := t.out.hiAck }, inn := { hiSeq := t.inn.hiSeq, hiAck := t.inn.hiAck } }

/-- R45: the entry has any drift. -/
def Entry.anyDrift (e : Entry) : Bool :=
  match e.tcp, e.mirror?.bind (·.edges) with
  | some t, some m => t.snapshot != m
  | _, _ => false

/-! ## Tracking a forwarded frame (R30, R31) -/

/-- R94: the Sequence Tracker's request for a REFRESH of a LIVE entry. -/
def State.requestRefresh (s : State) (h : Nat) : State :=
  match s.entry? h with
  | none => s
  | some e =>
    match e.mirror?, e.live? with
    | some m, some l =>
      if s.mirror.state = .idle ∨ l.unprotected = true then s
      else if m.inflight.isSome || m.queued.isSome || m.peer == .current then s.raiseNeed h .refresh
      else s
    | _, _ => s

/-- R31: the direction in which a frame forwarded on the outside side is tracked. -/
def trackDir (arrival : Port) (e : Entry) (v : SessionView) : Option Dir :=
  match arrival with
  | .wan => if v.dst = e.outside.loc then some .inn else none
  | .aOut => some .out
  | .bOut => some .out
  | .lan => none
  | .aIn => none
  | .bIn => none

/-- R32 step 7, R44: the drift test after a segment that moved hi_seq of a LIVE entry. -/
def State.driftTest (s : State) (h : Nat) (d : Dir) : State :=
  match s.entry? h with
  | some e =>
    match e.tcp, e.mirror?.bind (·.edges), e.live? with
    | some t, some m, some _ => if overThreshold t m d then s.requestRefresh h else s
    | _, _, _ => s
  | none => s

/-- R30 to R44: a forwarded frame of the entry at a handle is tracked. -/
def State.trackFrame (s : State) (h : Nat) (arrival : Port) (v : SessionView) : State :=
  match s.entry? h with
  | none => s
  | some e =>
    if e.phase = .retiring then s
    else match e.tcp, v.seg, trackDir arrival e v with
      | some t, some g, some d =>
        let r := t.segment d g
        let s1 := s.setEntry h { e with tcp := some r.tracking }
        let s2 := if r.anomaly then s1.inc .anomalies else s1
        if r.moved then s2.driftTest h d else s2
      | _, _, _ => s

/-- R26: a forwarded frame sets its entry's idle tag to 0. -/
def State.refreshIdle (s : State) (h : Nat) : State := s.modifyEntry h (fun e => { e with idleTag := 0 })

end Sys2Proof.Machine
end

