-- ==== Sys2Proof/Machine/ParkBuffer.lean ====
section
/-! DEFINITION. The Park Buffer (chapter 8): marks cleared into the Release Queue, the park decision, release turns and the
park sweeper; and the forwarding step that a frame on arrival and a released frame share (R83 step 5). -/

namespace Sys2Proof.Machine

/-! ## Marks cleared (R155, R171) -/

/-- R171: the entry joins the tail of the Release Queue when its chain is not empty. -/
def State.joinRelease (s : State) (h : Nat) : State :=
  match s.entry? h with
  | some e =>
    if e.chain.isEmpty then s
    else { s with park := { s.park with releaseQueue := s.park.releaseQueue ++ [h] } }
  | none => s

/-- R138: a tally of the cutover record raised by one, saturating. -/
def satInc (n cap : Nat) : Nat := min (n + 1) cap

/-- R155: the cutover record's tally, and RELEASED_UNCONFIRMED, for a mark cleared. -/
def State.tallyMark (s : State) (how : MarkEnd) : State :=
  match how with
  | .confirmed => { s with role := { s.role with record :=
      { s.role.record with confirmed := satInc s.role.record.confirmed 65535 } } }
  | .released => { s with role := { s.role with record :=
      { s.role.record with released := satInc s.role.record.released 65535 } } }.inc .releasedUnconfirmed
  | .neither => s

/-- R155, R171: a mark cleared as confirmed or released unconfirmed. -/
def State.clearMark (s : State) (h : Nat) (how : MarkEnd) : State :=
  if s.isMarked h then ((s.tallyMark how).unmark h).joinRelease h else s

/-- R155, R171: every mark cleared, in ascending handle order. -/
def State.clearAllMarks (s : State) (how : MarkEnd) : State :=
  s.markedHandles.foldl (fun t h => t.clearMark h how) s

/-! ## Forwarding a matched TRACK frame (R83 step 5, R173) -/

/-- A TRACK frame of the entry at a handle, handed on: refreshed and tracked when the hand-off succeeds, else dropped in
TX_DROP. -/
def State.forwardMatched (s : State) (h : Nat) (arrival dest : Port) (v : SessionView) (f : Frame) : State :=
  if s.canHand dest then (((s.handTx dest f).refreshIdle h).trackFrame h arrival v) else s.handTx dest f

/-! ## The park decision (R168 to R170) -/

/-- R138: frames parked or dropped are tallied in the cutover record while the phase is TRANSFER or SETTLE. -/
def State.inCutover (s : State) : Bool := s.role.phase == .transfer || s.role.phase == .settle

def State.tallyParked (s : State) : State :=
  if s.inCutover then
    { s with role := { s.role with record := { s.role.record with parked := satInc s.role.record.parked 4294967295 } } }
  else s

def State.tallyDropped (s : State) : State :=
  if s.inCutover then
    { s with role := { s.role with record := { s.role.record with dropped := satInc s.role.record.dropped 4294967295 } } }
  else s

/-- R169: cells are taken for a frame: cells in use and frames held rise, and the levels are compared. -/
def State.takeCells (s : State) (n : Nat) : State :=
  { s with park := { s.park with cellsInUse := s.park.cellsInUse + n, framesHeld := s.park.framesHeld + 1 } }.comparePark

/-- R169: the frame can be parked: cells for it and room in its chain. -/
def State.parkRoom (s : State) (e : Entry) (f : Frame) : Bool :=
  decide (cellsOf f ≤ Config.cells - s.park.cellsInUse) && decide (e.chain.length < s.param .parkLimit)

/-- R169: the frame appended to the chain; R170: a frame that begins a chain sets its age to 0. -/
def LivePart.append (l : LivePart) (p : Parked) : LivePart :=
  { l with chain := l.chain ++ [p], chainAge := if l.chain.isEmpty then 0 else l.chainAge }

/-- R169, R170: a TRACK frame is parked at the tail of its entry's chain, or dropped. -/
def State.parkFrame (s : State) (h : Nat) (e : Entry) (arrival : Port) (f : Frame) : State :=
  if s.parkRoom e f then
    let s1 := s.modifyEntry h
      (·.mapLive (·.append { port := arrival, cls := .track, bytes := f, cells := cellsOf f }))
    let s2 := ((s1.inc .parked).tallyParked).takeCells (cellsOf f)
    if e.chain.isEmpty && e.marked then s2.toUrgentHead h else s2
  else (s.inc .parkDrop).tallyDropped

/-- R168: a frame from LAN or WAN of a LIVE entry parks when the entry is marked or its chain is not empty. -/
def Entry.parks (e : Entry) : Bool := e.marked || !e.chain.isEmpty

/-! ## Release turns (R172, R173) -/

/-- R173: where a released frame goes: toward the firewall active at the turn. -/
def State.releasePort (s : State) (arrival : Port) : Port :=
  if arrival = .lan then s.role.active.inPort else s.role.active.outPort

/-- R173: one frame taken from the head of a chain and forwarded. A PARK_LEVEL notice that its cells raise is handed on at
once, before the frame, and may take the place the frame would have had (R70): DEDUCED, log entry 32. -/
def State.releaseFrame (s : State) (h : Nat) (p : Parked) (rest : List Parked) : State :=
  let s1 := (s.modifyEntry h (·.mapLive (fun l => { l with chain := rest }))).freeCells p
  let dest := s1.releasePort p.port
  let s2 := if s1.canHand dest then s1.inc .released else s1
  match readFrame p.bytes with
  | .session v => s2.forwardMatched h p.port dest v p.bytes
  | _ => s2.handTx dest p.bytes

/-- R172: up to `n` frames taken from the head of a chain, one after another. -/
def State.releaseFrames : Nat → State → Nat → State
  | 0, s, _ => s
  | n + 1, s, h =>
    match (s.entry? h).map Entry.chain with
    | some (p :: rest) => State.releaseFrames n (s.releaseFrame h p rest) h
    | _ => s

/-- R172: a release turn may be taken. -/
def State.turnReady (s : State) : Bool :=
  !s.park.releaseQueue.isEmpty && decide ((s.port s.role.active.inPort).tx.length ≤ Config.releaseRoom) &&
    decide ((s.port s.role.active.outPort).tx.length ≤ Config.releaseRoom)

/-- R172: after the frames of a turn, an entry with frames left joins the tail; otherwise its chain age becomes 0. -/
def State.endTurn (s : State) (h : Nat) : State :=
  match s.entry? h with
  | some e => if e.chain.isEmpty then s.modifyEntry h (·.mapLive (fun l => { l with chainAge := 0 })) else s.joinRelease h
  | none => s

/-- R172: a release turn, if one may be taken. -/
def State.releaseTurn (s : State) : State :=
  if s.turnReady then
    match s.park.releaseQueue with
    | [] => s
    | h :: q => (State.releaseFrames Config.releaseBurst { s with park := { s.park with releaseQueue := q } } h).endTurn h
  else s

/-! ## The park sweeper (R175) -/

/-- R175: one entry examined at a park sweep expiry. -/
def State.parkAge (s : State) (h : Nat) : State :=
  match (s.entry? h).bind Entry.live? with
  | some l =>
    if l.marked && !l.chain.isEmpty then
      if l.chainAge < 2 then s.modifyEntry h (·.mapLive (fun l => { l with chainAge := l.chainAge + 1 }))
      else s.clearMark h .released
    else s
  | none => s

/-- R175: a park sweep expiry. -/
def State.parkSweep (s : State) : State :=
  let s1 := { s with sweepers := { s.sweepers with park := s.param .parkSweep } }
  s1.handles.foldl State.parkAge s1

end Sys2Proof.Machine
end

