-- ==== Sys2Proof/Machine/Mirror.lean ====
section
/-! DEFINITION. The Mirror Channel (chapter 5): SYNC records (R188, R191), packing (R96 to R99), confirmation (R102 to
R105, R156), timeouts and stall (R107 to R109), walks (R111 to R116), and changes of target (R117, R118). -/

namespace Sys2Proof.Machine

/-! ## SYNC records (R188, R191) -/

def RecKind.code : RecKind → Nat
  | .declare => 1
  | .refresh => 2
  | .retire => 3

/-- A set of flag bits as a byte, lowest bit first. -/
def bitsByte (bs : List Bool) : Byte := BitVec.ofNat 8 (bs.foldr (fun b n => 2 * n + b.toNat) 0)

/-- An edge's 4 bytes: its value, or 0 where its valid flag is clear (R191). -/
def edgeBytes : Option Seq32 → List Byte
  | some v => beBytes 4 v.toNat
  | none => beBytes 4 0

/-- R188: the 24-byte edge block. -/
def edgeBlock : Option Tracking → List Byte
  | some t => edgeBytes t.out.hiSeq ++ edgeBytes t.out.hiAck ++ edgeBytes t.out.maxWin ++
      edgeBytes t.inn.hiSeq ++ edgeBytes t.inn.hiAck ++ edgeBytes t.inn.maxWin
  | none => List.replicate 24 0#8

/-- R191: the six valid bits, hi_seq OUT first. -/
def validBits : Option Tracking → List Bool
  | some t => [t.out.hiSeq.isSome, t.out.hiAck.isSome, t.out.maxWin.isSome,
      t.inn.hiSeq.isSome, t.inn.hiAck.isSome, t.inn.maxWin.isSome]
  | none => [false, false, false, false, false, false]

/-- R188: the 4-byte head of a SYNC record. -/
def syncHead (k : RecKind) (walk byB : Bool) (valid : List Bool) (h : Nat) : List Byte :=
  be1 k.code ++ [bitsByte (walk :: byB :: valid)] ++ be2 h

/-- R188: an endpoint's bytes. -/
def endpointBytes (fam : Family) (x : Endpoint) : List Byte := beBytes fam.addrBytes x.addr.toNat ++ beBytes 2 x.port.toNat

/-- R188: a tuple's bytes, its local endpoint first. -/
def tupleBytes (fam : Family) (t : Tuple) : List Byte := endpointBytes fam t.loc ++ endpointBytes fam t.rem

/-- R191: the scale pair a DECLARE record carries. -/
def scalePart : Option Tracking → Bool × Nat × Nat
  | some t => if t.scaleKnown then (true, t.scaleOut, t.scaleIn) else (false, 0, 0)
  | none => (false, 0, 0)

/-- R188, R191: the fixed part and the tuples of a DECLARE record, in the declaration record layout with action PUT. -/
def declPart (e : Entry) (d : Declared) : List Byte :=
  let (known, so, si) := scalePart e.tcp
  be1 1 ++ be1 e.family.code ++ be1 (e.proto.code e.family) ++ be1 e.agingClass.val ++ be1 d.fwState ++
    [bitsByte [known, e.initiator == .rem]] ++ be1 so ++ be1 si ++ beBytes 2 d.policy.toNat ++ be2 d.blob.length ++
    tupleBytes e.family d.inside ++ tupleBytes e.family e.outside

/-- R97, R188: the size of an entry's record of a kind. -/
def recordSize (e : Entry) (d : Declared) : RecKind → Nat
  | .declare => 4 + e.family.declFixed + (if e.tcp.isSome then 24 else 0) + d.blob.length
  | .refresh => 28
  | .retire => 4

/-- R191: an entry's record of a kind, as its fields stand. -/
def syncRecord (h : Nat) (e : Entry) (d : Declared) (m : MirrorPart) : RecKind → List Byte
  | .declare => syncHead .declare m.walk (d.declaredBy == .b) (validBits e.tcp) h ++ declPart e d ++
      (if e.tcp.isSome then edgeBlock e.tcp else []) ++ d.blob
  | .refresh => syncHead .refresh m.walk false (validBits e.tcp) h ++ edgeBlock e.tcp
  | .retire => syncHead .retire m.walk false (validBits none) h

/-! ## Batches (R96 to R100) -/

/-- R99: the first serial at or after `n` that no outstanding batch has; the first argument bounds the search. -/
def freshSerial (used : List Word16) : Nat → Word16 → Word16
  | 0, n => n
  | k + 1, n => if used.contains n then freshSerial used k (n + 1) else n

/-- R99: the serial the next batch takes. -/
def State.nextSerial (s : State) : Word16 := freshSerial (s.mirror.slots.map (·.serial)) 16 s.mirror.nextSerial

/-- R99, R113: a batch is placed in a slot and its SYNC frame handed to the target's IN port. -/
def State.sendBatch (s : State) (begin : Bool) (recs : List BatchRecord) (payload : List Byte) : State :=
  let serial := s.nextSerial
  let b : Batch := { serial := serial, age := 0, begin := begin, records := recs }
  let s0 := { s with mirror := { s.mirror with nextSerial := serial + 1, slots := s.mirror.slots ++ [b] } }
  let s1 := s0.inc .batchesSent
  match s1.mirror.target with
  | some f => s1.sendTo f .sync (if begin then 1#8 else 0#8) (BitVec.ofNat 8 recs.length) serial payload
  | none => s1

/-- R96: a RETIRING entry's blocks list names a marked entry. -/
def State.blocksMarked (s : State) (e : Entry) : Bool := e.blocks.any s.isMarked

/-- R96: a queued entry is eligible. -/
def State.eligible (s : State) (h : Nat) : Bool :=
  match s.entry? h with
  | none => false
  | some e =>
    match e.mirror? with
    | none => false
    | some m =>
      m.queued.isSome && m.inflight.isNone && e.waits == 0 &&
        (s.role.phase != .settle || e.marked || s.blocksMarked e)

/-- R97: the size of the record that a queued entry owes. -/
def State.owedSize (s : State) (h : Nat) : Nat :=
  match s.entry? h with
  | none => 0
  | some e =>
    match e.declared?, e.mirror?.bind (·.queued) with
    | some d, some k => recordSize e d k
    | _, _ => 0

/-- R97: the entries taken from a list of queued ones, with `n` records and `bytes` bytes taken already. -/
def State.fill (s : State) (limit : Nat) : List Nat → Nat → Nat → List Nat
  | [], _, _ => []
  | h :: t, n, bytes =>
    if s.eligible h then
      if n < limit ∧ bytes + s.owedSize h ≤ Config.syncPayload then
        h :: s.fill limit t (n + 1) (bytes + s.owedSize h)
      else []
    else s.fill limit t n bytes

/-- R97: the entries the next batch takes, from the head of URGENT, then from the head of NORMAL. -/
def State.pick (s : State) : List Nat := s.fill (s.param .recordLimit) (s.mirror.urgent ++ s.mirror.normal) 0 0

/-- R96: a batch is formed. -/
def State.packReady (s : State) : Bool :=
  (s.mirror.state == .walking || s.mirror.state == .streaming || s.mirror.state == .pushing) &&
    !s.mirror.beginPending && decide (s.mirror.slots.length < s.param .batchWindow) &&
    (s.mirror.urgent ++ s.mirror.normal).any s.eligible

/-- R98, R100: the record of a batch for a queued entry. -/
def State.batchRecord (s : State) (h : Nat) : Option BatchRecord :=
  match s.entry? h with
  | none => none
  | some e =>
    match e.mirror? with
    | none => none
    | some m => m.queued.map (fun k =>
        { handle := h, kind := k, walk := m.walk, edges := if k = .retire then none else e.tcp.map Tracking.snapshot })

/-- R191: the bytes of the record a queued entry owes. -/
def State.owedBytes (s : State) (h : Nat) : List Byte :=
  match s.entry? h with
  | none => []
  | some e =>
    match e.declared?, e.mirror? with
    | some d, some m =>
      match m.queued with
      | some k => syncRecord h e d m k
      | none => []
    | _, _ => []

/-- R98: an entry taken into a batch leaves its lane, its inflight the batch's serial with note CLEAN. -/
def State.takeInto (serial : Word16) (s : State) (h : Nat) : State :=
  (s.unqueue h).modifyEntry h (·.mapMirror (fun m => { m with inflight := some { serial := serial, note := .clean } }))

/-- R96 to R99: one batch is formed and sent, if the conditions hold. -/
def State.packBatch (s : State) : State :=
  if s.packReady then
    let hs := s.pick
    let s1 := hs.foldl (State.takeInto s.nextSerial) s
    s1.sendBatch false (hs.filterMap s.batchRecord) (hs.map s.owedBytes).flatten
  else s

/-! ## Put back and timeouts (R105, R107 to R109) -/

/-- An entry's inflight becomes none and its note is discarded. -/
def State.clearInflight (s : State) (h : Nat) : State := s.modifyEntry h (·.mapMirror (fun m => { m with inflight := none }))

/-- R107: the need a record put back becomes: REFRESH for a DECLARE whose entry is now CURRENT. -/
def putBackKind (m : MirrorPart) (k : RecKind) : RecKind := if k = .declare ∧ m.peer = .current then .refresh else k

/-- R107: one record put back at the head of a lane. -/
def State.putBackOne (s : State) (r : BatchRecord) : State :=
  match (s.entry? r.handle).bind Entry.mirror? with
  | none => s
  | some m =>
    (s.clearInflight r.handle).lanePlace r.handle (if s.isMarked r.handle then .urgent else .normal) true
      ((putBackKind m r.kind).merge m.queued)

/-- R107: records put back so that they stand at the heads of their lanes in batch order. -/
def State.putBack (s : State) (recs : List BatchRecord) : State := recs.reverse.foldl State.putBackOne s

/-- R105, R107, R109: records without a confirmation: put back, or in cutover phase SETTLE abandoned. -/
def State.returnRecords (s : State) (recs : List BatchRecord) : State :=
  if s.role.phase = .settle then recs.foldl (fun t r => t.clearInflight r.handle) s else s.putBack recs

/-- R107: one batch times out; its slot has been emptied. -/
def State.timeoutOne (s : State) (b : Batch) : State :=
  let s1 := { s with mirror := { s.mirror with timeouts := satInc s.mirror.timeouts 255 } }.inc .batchTimeouts
  if b.begin then s1 else s1.returnRecords b.records

/-- R108: the mirror stalls. -/
def State.stall (s : State) : State :=
  let s1 := { s with mirror := { s.mirror with
      state := .stalled, slots := [], restartHold := .running (s.param .confirmSweep) } }
  (s.mirror.slots.foldl (fun t b => t.putBack b.records) s1).raise .mirrorStalled
    (be1 (fwCode s.mirror.target) ++ be1 s.mirror.timeouts)

/-- R159: an expiry of the cutover limit, or a stall reported during the push: every mark is cleared as released
unconfirmed, and TRANSFER becomes SETTLE. -/
def State.releaseAll (s : State) : State :=
  let s1 := s.clearAllMarks .released
  if s1.role.phase = .transfer then { s1 with role := { s1.role with phase := .settle } } else s1

/-- R108, R109: what the timeouts of one expiry lead to once the count is at or above the stall count. -/
def State.stallTest (s : State) : State :=
  if s.param .stallCount ≤ s.mirror.timeouts then
    match s.mirror.state with
    | .walking => s.stall
    | .streaming => s.stall
    | .pushing => s.releaseAll
    | .idle => s
    | .stalled => s
  else s

/-- R101, R107, R113: a confirm sweep expiry, up to the tests that end its event. -/
def State.confirmSweep (s : State) : State :=
  let due := s.mirror.slots.filter (fun b => decide (2 ≤ b.age))
  let kept := (s.mirror.slots.filter (fun b => decide (b.age < 2))).map (fun b => { b with age := b.age + 1 })
  let s1 := { s with
    sweepers := { s.sweepers with confirm := s.param .confirmSweep }, mirror := { s.mirror with slots := kept } }
  let s2 := due.foldl State.timeoutOne s1
  let s3 := if due.isEmpty then s2 else s2.stallTest
  if due.any (·.begin) && s3.mirror.beginPending && s3.mirror.state != .stalled then s3.sendBatch true [] [] else s3

/-! ## Walks and changes of target (R111 to R118) -/

/-- R112, R117: the Mirror Engine's fields of a LIVE entry after the abandonment. -/
def MirrorPart.forget (m : MirrorPart) : MirrorPart :=
  { edges := m.edges.map (fun _ => MirEdges.invalid), peer := .absent, lane := none, queued := none, walk := false,
    inflight := none }

/-- R112, R117: what every entry forgets when the batches, lanes and walk are abandoned. -/
def Entry.forget (e : Entry) : Entry :=
  match e.body with
  | .tentative => e
  | .live d m l => { e with body := .live d m.forget { l with unprotected := false } }
  | .retiring d m bs =>
    { e with body := .retiring d { m with lane := none, queued := none, walk := false, inflight := none } bs }

/-- The entries' fields rewritten. -/
def State.mapEntries (s : State) (g : Entry → Entry) : State :=
  { s with table := { s.table with entries := s.table.entries.map (fun x => (x.1, g x.2)) } }

/-- The handles of the entries in a phase, ascending. -/
def State.handlesIn (s : State) (ph : Phase) : List Nat := s.handles.filter (fun h => s.phase h == ph)

/-- R112, R117: batches, lanes and walk are abandoned and every RETIRING entry is freed; the Mirror Engine is left with
the target, state, cursor and begin pending given. -/
def State.abandonMirror (s : State) (target : Option Fw) (st : MirrorState) (cursor : Nat) (begin : Bool) : State :=
  let s1 := { s.mapEntries Entry.forget with mirror := { s.mirror with
      target := target, state := st, urgent := [], normal := [], slots := [], timeouts := 0, cursor := cursor,
      walkPending := 0, walkQueued := 0, beginPending := begin, restartHold := .stopped } }
  s1.freeAll (s1.handlesIn .retiring)

/-- R112: a walk starts toward a firewall. -/
def State.walkStart (s : State) (f : Fw) : State :=
  ((s.abandonMirror (some f) .walking 0 true).sendBatch true [] []).inc .walks

/-- R117: the mirror target becomes none. -/
def State.targetLoss (s : State) : State := s.abandonMirror none .idle 16384 false

/-- R118: the Mirror Engine takes the TRANSFER event. -/
def State.mirrorTransfer (s : State) (dest : Fw) : State :=
  let s1 := s.mapEntries (·.mapMirror (fun m => { m with walk := false }))
  { s1 with mirror := { s1.mirror with
      target := some dest, state := .pushing, cursor := 16384, walkPending := 0, walkQueued := 0, beginPending := false,
      restartHold := .stopped } }

/-- R114: the walk cursor queues the entry it examines. -/
def State.walkQueues (e : Entry) : Bool :=
  match e.mirror?, e.live? with
  | some m, some l => m.queued.isNone && m.inflight.isNone && m.peer == .absent && !l.unprotected
  | _, _ => false

/-- R114: the walk cursor examines one handle. -/
def State.walkExamine (s : State) (h : Nat) : State :=
  match s.entry? h with
  | some e =>
    if State.walkQueues e then
      let s1 := (s.lanePlace h .normal false .declare).modifyEntry h (·.mapMirror (fun m => { m with walk := true }))
      { s1 with mirror := { s1.mirror with
          walkPending := s1.mirror.walkPending + 1, walkQueued := s1.mirror.walkQueued + 1 } }
    else s
  | none => s

/-- R114: the walk cursor may step. -/
def State.walkReady (s : State) : Bool :=
  s.mirror.state == .walking && decide (s.mirror.urgent.length + s.mirror.normal.length < Config.walkRoom) &&
    decide (s.mirror.cursor < Config.handles)

/-- R114: one step of the walk cursor, if it may step. -/
def State.walkStep (s : State) : State :=
  if s.walkReady then
    let s1 := s.walkExamine s.mirror.cursor
    { s1 with mirror := { s1.mirror with cursor := s.mirror.cursor + 1 } }
  else s

/-- R110: a PULSE from a firewall is handed to the Mirror Engine. -/
def State.mirrorPulse (s : State) (f : Fw) : State :=
  if s.mirror.state = .stalled ∧ s.mirror.target = some f ∧ s.mirror.restartHold = .expired then s.walkStart f else s

/-! ## Accepted declarations (R92, R93) -/

/-- R92: the walk DECLARE of a queued entry is still in its lane, not inflight. -/
def MirrorPart.walkInLane (m : MirrorPart) : Bool := m.lane.isSome && m.walk && m.inflight.isNone

/-- R92: the note of an inflight record that a newer declaration overtakes. -/
def MirrorPart.supersede (m : MirrorPart) : MirrorPart :=
  { m with
    peer := if m.peer = .current then .behind else m.peer
    inflight := m.inflight.map (fun i => { i with note := .superseded }) }

/-- R92: an accepted PUT whose sender is not the mirror target. -/
def State.putFromOther (s : State) (h : Nat) : State :=
  let s1 := s.modifyEntry h (·.mapLive (fun l => { l with unprotected := false }))
  if s1.mirror.target.isNone then s1
  else
    let s2 := s1.modifyEntry h (·.mapMirror MirrorPart.supersede)
    let s3 := match (s2.entry? h).bind Entry.mirror? with
      | some m => if m.walkInLane then s2.settleWalk h else s2
      | none => s2
    s3.raiseNeed h .declare

/-- R93: an accepted PUT whose sender is the mirror target; the entry's mark is cleared as confirmed. -/
def State.putFromTarget (s : State) (h : Nat) : State :=
  let s1 := (s.unqueue h).modifyEntry h (fun e => (e.mapLive (fun l => { l with unprotected := false })).mapMirror
    (fun m => { m with peer := .current, inflight := m.inflight.map (fun i => { i with note := .owned }) }))
  s1.clearMark h .confirmed

/-! ## Confirmation (R102 to R105, R156) -/

/-- R102: what a status byte says; any other value is treated as REFUSE_BAD. -/
def statusOf (b : Byte) : SyncStatus :=
  if b = 0#8 then .accept else if b = 1#8 then .refuseFull else .refuseBad

/-- An accepted record's snapshot becomes the mirrored edges, of a TCP entry. -/
def MirrorPart.takeSnapshot (m : MirrorPart) (sn : Option MirEdges) : MirrorPart :=
  match m.edges, sn with
  | some _, some x => { m with edges := some x }
  | _, _ => m

/-- R103: the peer state after an accepted DECLARE. -/
def acceptedPeer : Note → Peer
  | .superseded => .behind
  | .clean => .current
  | .owned => .current

/-- R103: a DECLARE record accepted. -/
def State.declareAccepted (s : State) (r : BatchRecord) (note : Note) : State :=
  (s.modifyEntry r.handle (fun e => (e.mapLive (fun l => { l with unprotected := false })).mapMirror
    (fun m => { m.takeSnapshot r.edges with peer := acceptedPeer note }))).inc .recordsAccepted

/-- R103: a DECLARE record refused with note CLEAN or SUPERSEDED. A LIVE entry becomes unprotected and owes nothing; a
RETIRING entry keeps its RETIRE. -/
def State.declareRefused (s : State) (r : BatchRecord) (st : SyncStatus) (serial : Word16) : State :=
  let s1 := if s.phase r.handle = .live then
      (s.unqueue r.handle).modifyEntry r.handle (·.mapLive (fun l => { l with unprotected := true }))
    else s
  (s1.inc .recordsRefused).raise .syncRefused (be2 r.handle ++ be1 st.code ++ be2 serial.toNat)

/-- R115: a walk-flagged DECLARE that is settled clears its entry's walk flag. -/
def State.settleWalkOf (s : State) (r : BatchRecord) : State := if r.walk then s.settleWalk r.handle else s

/-- R103, R104: one status applied to a record of its entry, whose inflight has become none. -/
def State.settleRecord (s : State) (r : BatchRecord) (note : Note) (st : SyncStatus) (serial : Word16) : State :=
  match r.kind, st with
  | .declare, .accept => (s.declareAccepted r note).settleWalkOf r
  | .declare, _ =>
    (if note = .owned then s.inc .recordsRefused else s.declareRefused r st serial).settleWalkOf r
  | .refresh, .accept =>
    (s.modifyEntry r.handle (·.mapMirror (·.takeSnapshot r.edges))).inc .recordsAccepted
  | .refresh, _ => s.inc .recordsRefused
  | .retire, .accept => (s.freeEntry r.handle).inc .recordsAccepted
  | .retire, _ => (s.freeEntry r.handle).inc .recordsRefused

/-- R156: the Role Controller's test of a marked entry after a status of one of its records. -/
def State.offerMark (s : State) (r : BatchRecord) (note : Note) (st : SyncStatus) : State :=
  match s.entry? r.handle with
  | none => s
  | some e =>
    match e.marked, e.mirror? with
    | true, some m =>
      if r.kind = .declare ∧ st ≠ .accept ∧ note ≠ .owned then s.clearMark r.handle .released
      else if m.peer = .current ∧ m.queued = none ∧ m.inflight = none then
        if e.anyDrift then (if st = .accept then s.raiseNeed r.handle .refresh else s)
        else s.clearMark r.handle .confirmed
      else s
    | _, _ => s

/-- R102 to R104, R156: one status applied to the record in its position. -/
def State.applyStatus (s : State) (serial : Word16) (r : BatchRecord) (st : SyncStatus) : State :=
  match ((s.entry? r.handle).bind Entry.mirror?).bind (·.inflight) with
  | none => s
  | some i =>
    ((s.clearInflight r.handle).settleRecord r i.note st serial).offerMark r i.note st

/-- R102, R105: the statuses applied first to last; the records without one are returned. -/
def State.applyStatuses (serial : Word16) : State → List BatchRecord → List Byte → State
  | s, [], _ => s
  | s, r :: rs, [] => s.returnRecords (r :: rs)
  | s, r :: rs, b :: bs => State.applyStatuses serial (s.applyStatus serial r (statusOf b)) rs bs

/-- R102: a SYNC-ACK from the mirror target, up to the tests that end its event. -/
def State.syncAck (s : State) (serial : Word16) (statuses : List Byte) : State :=
  match s.mirror.slots.find? (fun b => b.serial == serial) with
  | none => s.inc .strayAck
  | some b =>
    let s1 := { s with mirror := { s.mirror with
        slots := s.mirror.slots.filter (fun x => x.serial != serial)
        timeouts := 0
        beginPending := if b.begin then false else s.mirror.beginPending } }
    State.applyStatuses serial s1 b.records statuses

end Sys2Proof.Machine
end

