-- ==== Sys2Proof/Machine/Roles.lean ====
section
/-! DEFINITION. Roles and Cutover (chapter 7): planned cutovers, the TRANSFER event and its marking, the end of SETTLE,
second failures, and what a change of health leads to. -/

namespace Sys2Proof.Machine

/-! ## Planned cutovers (R146 to R151) -/

def cutKindCode : Option CutKind → Nat
  | none => 0
  | some k => k.code

def cutReasonCode : Option CutReason → Nat
  | none => 0
  | some r => r.code

/-- R150, R153: CUTOVER_START's parameters. -/
def State.startParams (s : State) : List Byte :=
  be1 (cutKindCode s.role.kind) ++ be1 (cutReasonCode s.role.reason) ++ be1 (fwCode s.role.source) ++ be1 (fwCode s.role.dest)

/-- R150, R153: a cutover starts: kind, reason, source and destination are set and the cutover record is set to zeros. -/
def State.openCutover (s : State) (k : CutKind) (r : CutReason) : State :=
  { s with role := { s.role with
      kind := some k, reason := some r, source := some s.role.active, dest := some s.role.active.other, record := .zero } }

/-- R151: what the pre-push names for one entry. -/
def State.prePushOne (s : State) (h : Nat) : State :=
  match s.entry? h with
  | none => s
  | some e =>
    match e.body with
    | .tentative => s
    | .live _ m l =>
      if l.unprotected then s
      else match m.lane with
        | some .normal => s.toUrgentTail h
        | some .urgent => s
        | none =>
          if m.inflight.isSome then s
          else if m.peer = .current then (if e.anyDrift then s.lanePlace h .urgent false .refresh else s)
          else s.lanePlace h .urgent false .declare
    | .retiring _ m bs => if m.lane = some .normal ∧ bs ≠ [] then s.toUrgentTail h else s

/-- R151: the pre-push, every entry in ascending handle order. -/
def State.prePush (s : State) : State := s.handles.foldl State.prePushOne s

/-- R141: the DRAIN frame to the source. -/
def State.sendDrain (s : State) : State :=
  s.sendTo s.role.active .drain 0#8 0#8 s.role.epoch
    (be1 (fwCode s.role.dest) ++ be2 (s.param .quiesceTimeout))

/-- R150: a planned cutover begins; its ROLE frames are sent as its event ends. -/
def State.beginPlanned (s : State) (r : CutReason) : State :=
  let s1 := s.openCutover .planned r
  let s2 := { s1 with role := { s1.role with phase := .quiesce, dwell := .stopped } }
  let s3 := (s2.raise .cutoverStart s2.startParams).sendDrain
  { s3 with role := { s3.role with quiesce := .start (s3.param .quiesceTimeout) } }.prePush

/-- R148: the preferred firewall is the standby, and preempt preferred is on. -/
def State.preferredStandby (s : State) : Bool :=
  s.param .preemptPreferred == 1 && s.standby.isSome && s.param .preferred == fwCode s.standby

/-- R148: the conditions of a preemption. -/
def State.mayPreempt (s : State) : Bool :=
  s.role.phase == .none && !s.role.holdDown.isRunning && s.ready && (s.preferredStandby || s.role.dwell == .complete)

/-- R148: a preemption test. -/
def State.preemptTest (s : State) : State :=
  if s.mayPreempt then s.beginPlanned (if s.preferredStandby then .preferred else .fitness) else s

/-- R147: the fitness condition. -/
def State.fitnessHolds (s : State) : Bool :=
  match s.standby with
  | some f =>
    s.param .fitnessPreemption == 1 && s.role.phase == .none &&
      decide ((s.fw s.role.active).fitness + s.param .fitnessMargin ≤ (s.fw f).fitness)
  | none => false

/-- R147: the fitness dwell after an evaluation of the condition. -/
def State.nextDwell (s : State) : Dwell :=
  if s.fitnessHolds then
    match s.role.dwell with
    | .stopped => .running (s.param .fitnessDwell)
    | .running p => .running p
    | .complete => .complete
  else .stopped

/-- R147: the fitness condition is evaluated. -/
def State.evalFitness (s : State) : State := { s with role := { s.role with dwell := s.nextDwell } }

/-! ## The mirror target (R88, R140) -/

/-- R88, R140: in phase NONE or QUIESCE the target is recomputed and the Mirror Engine takes the change. -/
def State.retarget (s : State) : State :=
  match s.standby with
  | some f => if s.mirror.target = some f then s else s.walkStart f
  | none => if s.mirror.target = none then s else s.targetLoss

/-! ## Tests that end an event (R116, R160) -/

/-- R160: the parameters of CUTOVER_END. -/
def State.endParams (s : State) : List Byte :=
  be2 s.role.record.markedAtTransfer ++ be2 s.role.record.confirmed ++ be2 s.role.record.released ++
    be4 s.role.record.parked ++ be4 s.role.record.dropped

/-- R160: the end of SETTLE. -/
def State.endSettle (s : State) : State :=
  let s1 := s.clearAllMarks .released
  let s2 := { s1 with role := { s1.role with lateWindow := .stopped, cutLimit := .stopped, phase := .none } }
  ((s2.raise .cutoverEnd s2.endParams).retarget).preemptTest

/-- R160: SETTLE may end. -/
def State.settleDone (s : State) : Bool :=
  s.role.phase == .settle && s.park.framesHeld == 0 && s.park.releaseQueue.isEmpty && s.mirror.slots.isEmpty

/-- R116: the walk has ended. -/
def State.walkDone (s : State) : Bool :=
  s.mirror.state == .walking && s.mirror.cursor == Config.handles && s.mirror.walkPending == 0 && !s.mirror.beginPending

/-- R116, R148: a walk ends: STREAMING, WALK_DONE, and a preemption test. -/
def State.endWalk (s : State) : State :=
  let s1 := { s with mirror := { s.mirror with state := .streaming } }
  (s1.raise .walkDone (be1 (fwCode s.mirror.target) ++ be2 s.mirror.walkQueued)).preemptTest

/-- R116, R160: the tests made as an event ends, before any batch is formed. -/
def State.finish (s : State) : State :=
  let s1 := if s.settleDone then s.endSettle else s
  if s1.walkDone then s1.endWalk else s1

/-! ## TRANSFER (R153, R154) -/

/-- R154: the marking rule's conditions on a LIVE entry. -/
def Entry.toBeMarked (e : Entry) : Bool :=
  match e.mirror?, e.live? with
  | some m, some l =>
    !l.unprotected && (m.peer != .current || m.queued.isSome || m.inflight.isSome || e.anyDrift)
  | _, _ => false

/-- R154: an entry's mark is set and the marked count rises. -/
def State.setMark (s : State) (h : Nat) : State :=
  { s with role := { s.role with marked := s.role.marked + 1 } }.modifyEntry h (·.mapLive (fun l => { l with marked := true }))

/-- R154: the needs and moves named for an entry that has been marked. -/
def State.pushMarked (s : State) (h : Nat) (m : MirrorPart) : State :=
  match m.lane with
  | some .normal => s.toUrgentTail h
  | some .urgent => s
  | none =>
    if m.inflight.isSome then s
    else s.lanePlace h .urgent false (if m.peer = .current then .refresh else .declare)

/-- R154: one entry examined at TRANSFER. -/
def State.markOne (s : State) (h : Nat) : State :=
  match s.entry? h with
  | none => s
  | some e =>
    match e.mirror? with
    | some m => if e.toBeMarked then (s.setMark h).pushMarked h m else s
    | none => s

/-- R154: a RETIRING entry queued in NORMAL whose blocks list names a marked entry is moved. -/
def State.moveBlocker (s : State) (h : Nat) : State :=
  match s.entry? h with
  | none => s
  | some e => if s.laneOf h = some .normal ∧ s.blocksMarked e = true then s.toUrgentTail h else s

/-- R154: the marking at TRANSFER. -/
def State.markEntries (s : State) : State :=
  let s1 := s.handles.foldl State.markOne s
  s1.handles.foldl State.moveBlocker s1

/-- R153 steps 2 to 6: the active role moves to the destination. -/
def State.moveActive (s : State) (dest : Fw) : State :=
  let s1 := { s with
    decl := s.decl.set dest none
    role := { s.role with
      quiesce := .stopped
      dwell := .stopped
      startup := .over
      dark := false
      active := dest
      epoch := s.role.epoch + 1
      holdDown := .start (s.param .holdDown)
      cutLimit := .start (s.param .cutoverLimit)
      lateWindow := if s.role.kind = some CutKind.planned then .start (s.param .lateWindow) else s.role.lateWindow
      phase := .transfer } }
  s1.mirrorTransfer dest

/-- R153 step 9: the marked count is recorded and the cutover is counted by its kind. -/
def State.recordTransfer (s : State) : State :=
  { s with role := { s.role with record := { s.role.record with markedAtTransfer := min s.role.marked 65535 } } }.inc
    (if s.role.kind = some CutKind.planned then .cutoversPlanned else .cutoversUnplanned)

/-- R153 steps 2 to 10: the TRANSFER event; its ROLE frames are sent as the event ends. -/
def State.makeTransfer (s : State) : State :=
  let s1 := s.moveActive s.role.active.other
  let s2 := s1.freeAll (s1.handlesIn .tentative)
  ((s2.markEntries.recordTransfer).toSettle).finish

/-- R153: an unplanned cutover that begins at TRANSFER, from phase NONE. -/
def State.unplanned (s : State) (r : CutReason) : State :=
  let s1 := s.openCutover .unplanned r
  (s1.raise .cutoverStart s1.startParams).makeTransfer

/-! ## Loss of the active firewall and second failures (R143, R152, R161, R162) -/

/-- CUTOVER_ABORT's parameters, with the phase at the abort. -/
def State.abortParams (s : State) (ph : CutPhase) : List Byte :=
  be1 1 ++ be1 (fwCode s.role.source) ++ be1 (fwCode s.role.dest) ++ be1 ph.code

/-- CUTOVER_ABORT raised and counted. -/
def State.raiseAbort (s : State) (ph : CutPhase) : State :=
  (s.raise .cutoverAbort (s.abortParams ph)).inc .cutoverAborts

/-- R143, R162: the dark flag is set and DARK is raised, with its reason's code. -/
def State.goDark (s : State) (reason : Nat) : State :=
  { s with role := { s.role with dark := true } }.raise .dark (be1 (Fw.code s.role.active) ++ be1 reason)

/-- R88, R117: the mirror target becomes none. -/
def State.dropTarget (s : State) : State := if s.mirror.target = none then s else s.targetLoss

/-- R152: the destination stops being usable in QUIESCE. -/
def State.abortQuiesce (s : State) : State :=
  let s1 := { s with role := { s.role with quiesce := .stopped, phase := .none } }
  ((s1.raiseAbort .quiesce).retarget).preemptTest

/-- R152: the source becomes DOWN in QUIESCE: the kind becomes UNPLANNED and TRANSFER is made at once. -/
def State.loseSource (s : State) : State :=
  { s with role := { s.role with kind := some .unplanned, quiesce := .stopped } }.makeTransfer

/-- R161: the cut-back. -/
def State.cutBack (s : State) : State :=
  let back := s.role.active.other
  let s1 := { s with
    decl := s.decl.set back none
    role := { s.role with active := back, epoch := s.role.epoch + 1, holdDown := .start (s.param .holdDown) } }
  let s2 := s1.clearAllMarks .released
  let s3 := { s2 with role := { s2.role with lateWindow := .stopped, phase := .settle } }
  (s3.dropTarget.raiseAbort s.role.phase).finish

/-- R162: every mark is cleared, counted neither as confirmed nor as released unconfirmed. -/
def State.unmarkAll (s : State) : State := s.markedHandles.foldl State.unmark s

/-- R162, R177: every chain is emptied and the Release Queue cleared. The chains go in ascending handle order, and the frames
of one in their order: DESIGN CHOICE, log entry 31. -/
def State.discardAll (s : State) : State :=
  let s1 := s.handles.foldl State.discardChain s
  { s1 with park := { s1.park with releaseQueue := [] } }

/-- R162: a second failure goes dark. -/
def State.secondDark (s : State) : State :=
  let s1 := s.unmarkAll.discardAll
  let s2 := { s1 with role := { s1.role with lateWindow := .stopped, cutLimit := .stopped, phase := .none } }
  ((s2.dropTarget.goDark 2).raiseAbort s.role.phase).preemptTest

/-! ## Changes of health (R132, R139 to R145) -/

/-- R143, R145, R152, R161, R162: a change of the active firewall's health. -/
def State.activeChanged (s : State) (new : HealthState) : State :=
  if new.isDown then
    match s.role.phase with
    | .none => if s.usable s.role.active.other then s.unplanned .failure else s.goDark 1
    | .quiesce => s.loseSource
    | .transfer => if s.usable s.role.active.other then s.cutBack else s.secondDark
    | .settle => if s.usable s.role.active.other then s.cutBack else s.secondDark
  else if new = .up then { s with role := { s.role with dark := false } }
  else s

/-- R144: a firewall that becomes UP takes the active role. -/
def State.recovers (s : State) (new : HealthState) : Bool :=
  new == .up && s.role.phase == .none && !s.usable s.role.active && (s.role.dark || s.role.startup == .over)

/-- R157: the late window ends when the source becomes DOWN. -/
def State.endLate (s : State) (f : Fw) (new : HealthState) : State :=
  if new.isDown = true ∧ s.role.source = some f then { s with role := { s.role with lateWindow := .stopped } } else s

/-- R140, R144, R152, R157: a change of the health of the firewall that is not active. -/
def State.otherChanged (s : State) (f : Fw) (new : HealthState) : State :=
  if s.recovers new then s.unplanned .recovery
  else
    let s1 := s.endLate f new
    match s1.role.phase with
    | .none => s1.retarget
    | .quiesce => if s1.standby.isNone then s1.abortQuiesce else s1.retarget
    | .transfer => s1
    | .settle => s1

/-- R132: the Role Controller takes a change of a firewall's health state; the fitness condition is evaluated too (R147). -/
def State.healthChanged (s : State) (f : Fw) (new : HealthState) : State :=
  (if f = s.role.active then s.activeChanged new else s.otherChanged f new).evalFitness

/-- R147, R148: the Role Controller takes a fitness: the condition is evaluated, then the preemption test is made. The order is
a DESIGN CHOICE, log entry 29. -/
def State.fitnessTaken (s : State) : State := s.evalFitness.preemptTest

/-- R142: the start-up test. -/
def State.startupTest (s : State) : State :=
  if s.role.phase = .none ∧ (s.fw s.role.active).state ≠ .up ∧ (s.fw s.role.active.other).state = .up then
    s.unplanned .startup
  else s

/-- R146: a SWITCHOVER judged. -/
def State.judgeSwitchover (s : State) (force : Bool) : Status × State :=
  if s.role.phase ≠ .none then (.busy, s)
  else if s.standby.isNone then (.notReady, s)
  else if !s.ready && !force then (.notReady, s)
  else (.ok, s.asEvent (·.beginPlanned .switchover))

/-! ## Late declarations (R158, R174) -/

/-- R174: an entry in the Release Queue that is marked again leaves it, and its chain is treated as beginning anew. -/
def State.rejoinChain (s : State) (h : Nat) : State :=
  match s.entry? h with
  | some e =>
    if e.chain.isEmpty then s
    else ((s.leaveRelease h).modifyEntry h (·.mapLive (fun l => { l with chainAge := 0 }))).toUrgentHead h
  | none => s

/-- R158: an unmarked entry is marked again and its DECLARE moved to the tail of URGENT. -/
def State.reMark (s : State) (h : Nat) : State :=
  if s.phase h = .live ∧ s.isMarked h = false then
    let s1 := s.setMark h
    let s2 := { s1 with role := { s1.role with record := { s1.role.record with reMarked := satInc s1.role.record.reMarked 65535 } } }
    (s2.toUrgentTail h).rejoinChain h
  else s

end Sys2Proof.Machine
end

