-- ==== Sys2Proof/Machine/Health.lean ====
section
/-! DEFINITION. Firewall Health (chapter 6): the PULSE event (R125 to R127), misses (R128), link loss (R129), and what
health hands on (R131, R132). -/

namespace Sys2Proof.Machine

/-! ## Events of this chapter (R131) -/

/-- R131: FW_DOWN raised for a firewall, with a down reason. -/
def State.raiseFwDown (s : State) (f : Fw) (r : DownReason) : State :=
  s.raise .fwDown (be1 (Fw.code f) ++ be1 r.code)

/-- R131: FW_UP raised for a firewall, with its last fitness. -/
def State.raiseFwUp (s : State) (f : Fw) : State :=
  s.raise .fwUp (be1 (Fw.code f) ++ be1 (s.fw f).fitness)

/-- R131: the event that a change of health state raises: FW_DOWN at each entry into DOWN, FW_UP at each entry into UP
except a return from SUSPECT. -/
def State.raiseHealth (s : State) (f : Fw) (old new : HealthState) : State :=
  match new with
  | .down r => if old.isDown then s else s.raiseFwDown f r
  | .up => if old = .suspect ∨ old = .up then s else s.raiseFwUp f
  | .absent => s
  | .joining => s
  | .suspect => s

/-! ## Hand-off of a change (R132) -/

/-- R132, R141: the Role Controller takes a change of health as one event; `roleA` and `roleB` are the assigned roles
before the change. -/
def State.handChange (s : State) (f : Fw) (new : HealthState) (roleA roleB : RoleName) : State :=
  (s.healthChanged f new).finish.sendRoleChanges s.role.phase roleA roleB

/-- A health record replaced whose state may have changed: the event of R131 is raised. -/
def State.moveHealth (s : State) (f : Fw) (h : HealthRecord) : State :=
  (s.setFw f h).raiseHealth f (s.fw f).state h.state

/-- R132: a change of state made since `s0` is handed over; no change, nothing. -/
def State.handIfChanged (s s0 : State) (f : Fw) : State :=
  if (s.fw f).state = (s0.fw f).state then s
  else s.handChange f (s.fw f).state (s0.assigned .a) (s0.assigned .b)

/-! ## PULSE (R125 to R127) -/

/-- R126: both of the firewall's links are UP. -/
def State.linksUp (s : State) (f : Fw) : Bool :=
  (s.port f.inPort).link == .up && (s.port f.outPort).link == .up

/-- R126: a JOINING firewall with its good count set or raised, compared with the rejoin count. -/
def HealthRecord.join (h : HealthRecord) (good rejoin : Nat) : HealthRecord :=
  if rejoin ≤ good then { h with state := .up, good := 0 } else { h with state := .joining, good := good }

/-- R126: the change of state at a PULSE of fitness 1 to 15. -/
def HealthRecord.fitPulse (h : HealthRecord) (linksUp : Bool) (rejoin : Nat) : HealthRecord :=
  if linksUp then
    match h.state with
    | .absent => h.join 1 rejoin
    | .down _ => h.join 1 rejoin
    | .joining => h.join (min (h.good + 1) 15) rejoin
    | .suspect => { h with state := .up }
    | .up => h
  else
    match h.state with
    | .down _ => h
    | .absent => { h with state := .down .link }
    | .joining => { h with state := .down .link }
    | .suspect => { h with state := .down .link }
    | .up => { h with state := .down .link }

/-- R127: the change of state at a PULSE of fitness 0. -/
def HealthRecord.unfitPulse (h : HealthRecord) : HealthRecord :=
  match h.state with
  | .down _ => { h with good := 0 }
  | .absent => { h with state := .down .unfit, good := 0 }
  | .joining => { h with state := .down .unfit, good := 0 }
  | .suspect => { h with state := .down .unfit, good := 0 }
  | .up => { h with state := .down .unfit, good := 0 }

/-- R125 step 3. -/
def HealthRecord.judgePulse (h : HealthRecord) (linksUp : Bool) (rejoin : Nat) : HealthRecord :=
  if h.fitness = 0 then h.unfitPulse else h.fitPulse linksUp rejoin

/-- R188: the role a code names. -/
def roleOf (n : Nat) : RoleName :=
  match n with
  | 1 => .active
  | 2 => .standby
  | _ => .none

/-- R125 steps 1 and 2: timer, misses and record. -/
def HealthRecord.recordPulse (h : HealthRecord) (c : Ccf) (beat : Nat) : HealthRecord :=
  { h with
    pulseTimer := .running beat
    misses := 0
    lastSeq := c.seq
    claimed := roleOf (byteAt c.payload 0).toNat
    fitness := (byteAt c.payload 1).toNat
    learned := if isGroup c.source then h.learned else c.source }

/-- R125 steps 1 to 3: a firewall's health record after a PULSE. -/
def State.pulsedRecord (s : State) (f : Fw) (c : Ccf) : HealthRecord :=
  ((s.fw f).recordPulse c (s.param .beatPeriod)).judgePulse (s.linksUp f) (s.param .rejoinCount)

/-- R125 step 5: a claimed role that differs from the assigned role is counted. -/
def State.countMismatch (s : State) (f : Fw) : State :=
  if (s.fw f).claimed = s.assigned f then s else s.inc .roleMismatch

/-- R125: a PULSE from a firewall. The hand-offs of step 4 are events of their own (R132), taken once the PULSE's own
event has ended: step 5 compares and step 6 answers with what step 3 left (R136). DEDUCED, log entry 13. -/
def State.pulseFrom (s : State) (f : Fw) (c : Ccf) : State :=
  let s1 := s.moveHealth f (s.pulsedRecord f c)
  let s2 := (s1.countMismatch f).sendRole f
  ((s2.asEvent State.fitnessTaken).handIfChanged s f).mirrorPulse f

/-! ## Misses (R128) -/

/-- R128: a health record after an expiry of its pulse timer. -/
def HealthRecord.miss (h : HealthRecord) (beat dead : Nat) : HealthRecord :=
  let h1 := { h with misses := min (h.misses + 1) 15, pulseTimer := .running beat }
  match h1.state with
  | .up => { h1 with state := .suspect }
  | .suspect => if dead ≤ h1.misses then { h1 with state := .down .pulseLoss } else h1
  | .joining => { h1 with state := .down .pulseLoss, good := 0 }
  | .down _ => h1
  | .absent => h1

/-- R128: an expiry of a firewall's pulse timer, taken when the timer runs. -/
def State.pulseExpiry (s : State) (f : Fw) : State :=
  if (s.fw f).pulseTimer.isRunning then
    (s.moveHealth f ((s.fw f).miss (s.param .beatPeriod) (s.param .deadCount))).handIfChanged s f
  else s

/-! ## Link loss (R129) -/

/-- R129: a health record after a loss of link on one of its ports. -/
def HealthRecord.loseLink (h : HealthRecord) (beat : Nat) : HealthRecord :=
  { h with
    state := .down .link
    good := 0
    pulseTimer := if h.state = .absent then .running beat else h.pulseTimer }

/-- R129: a loss of link reported to the Health Monitor. A firewall already DOWN hands over no change (R143). -/
def State.linkLoss (s : State) (f : Fw) : State :=
  let s1 := (s.setFw f ((s.fw f).loseLink (s.param .beatPeriod))).raiseFwDown f .link
  if (s.fw f).state.isDown then s1 else s1.handChange f (.down .link) (s.assigned .a) (s.assigned .b)

end Sys2Proof.Machine
end

