-- ==== Sys2Proof/Machine/EngineCommands.lean ====
section
/-! DEFINITION. Reset (R28), the links (R69), and the steps the part takes of its own accord: TRANSMIT_FRAME, RELEASE_TURN,
PACK_BATCH and WALK_CURSOR_STEP. A step whose conditions do not hold is not taken, and the state stays (log entry 8). -/

namespace Sys2Proof.Machine

/-! ## Reset -/

/-- RESET (R28): every field of the part takes its reset value. The commands that wait, and the count of free values
taken, are the model's own and stay (log entry 6). -/
def execReset (s : State) : Host.Outcome State Fault Refusal :=
  .next { State.reset with pending := s.pending, freeReads := s.freeReads }

/-! ## Links (R69, R70, R129) -/

/-- R69: PORT_LINK raised for a port, with its link state. -/
def State.raisePortLink (s : State) (p : Port) (l : Link) : State := s.raise .portLink (be1 (Port.code p) ++ be1 (Link.code l))

/-- R69: a port establishes its link. -/
def State.linkRise (s : State) (p : Port) : State :=
  if (s.port p).link = .up then s else (s.setPort p { s.port p with link := .up }).raisePortLink p .up

/-- R70: a port's link state is DOWN, every frame in its transmit queue dropped and counted. -/
def State.dropLink (s : State) (p : Port) : State :=
  (s.add .txDrop (s.port p).tx.length).setPort p { link := .down, tx := [] }

/-- R69, R70, R129: a port loses its link. -/
def State.linkFall (s : State) (p : Port) : State :=
  if (s.port p).link = .down then s
  else
    let s1 := (s.dropLink p).raisePortLink p .down
    match p.fw? with
    | some f => s1.linkLoss f
    | none => s1

/-- LINK_UP (R69). -/
def execLinkUp (p : Port) (s : State) : Host.Outcome State Fault Refusal := .next (s.linkRise p)

/-- LINK_DOWN (R69). -/
def execLinkDown (p : Port) (s : State) : Host.Outcome State Fault Refusal := .next (s.linkFall p)

/-! ## Steps of the part's own -/

/-- R70: the port sends the frame at the head of its transmit queue. -/
def State.transmit (s : State) (p : Port) : State :=
  match (s.port p).tx with
  | [] => s
  | _ :: rest => (s.setPort p { s.port p with tx := rest }).inc (.framesOut p)

/-- R172, R178: a release turn as one event, with the tests that end it. -/
def State.releaseEvent (s : State) : State := if s.turnReady then s.asEvent (fun t => t.releaseTurn.finish) else s

/-- R114, R116: one step of the walk cursor as one event, with the tests that end it. -/
def State.walkEvent (s : State) : State := if s.walkReady then s.asEvent (fun t => t.walkStep.finish) else s

/-- TRANSMIT_FRAME (R70). -/
def execTransmitFrame (p : Port) (s : State) : Host.Outcome State Fault Refusal := .next (s.transmit p)

/-- RELEASE_TURN (R172). -/
def execReleaseTurn (s : State) : Host.Outcome State Fault Refusal := .next s.releaseEvent

/-- PACK_BATCH (R96). -/
def execPackBatch (s : State) : Host.Outcome State Fault Refusal := .next s.packBatch

/-- WALK_CURSOR_STEP (R114). -/
def execWalkCursorStep (s : State) : Host.Outcome State Fault Refusal := .next s.walkEvent

end Sys2Proof.Machine
end

