-- ==== Sys2Proof/Machine/Declarations.lean ====
section
/-! DEFINITION. Session Declarations (chapter 3): the sender check, the sequence check, the walk of the records, PUT and
DROP, and FLUSHED. -/

namespace Sys2Proof.Machine

/-! ## Sender and sequence (R48 to R51) -/

/-- R48, R157: the sender is the source of a planned cutover whose late window runs, in TRANSFER or SETTLE. -/
def State.isLateSource (s : State) (f : Fw) : Bool :=
  s.role.source == some f && s.role.kind == some CutKind.planned && s.inCutover && s.role.lateWindow.isRunning

/-- R48: the Declaration Receiver accepts a DECLARE from the sender. -/
def State.acceptsDeclare (s : State) (f : Fw) : Bool := s.role.active == f || s.isLateSource f

/-- R49: a DECLARE refused whole. -/
def State.refuseWrongRole (s : State) (f : Fw) (c : Ccf) : State :=
  (s.add .refusedWrongRole c.records).raiseWrongRole f
    (be1 (Fw.code f) ++ be1 (s.assigned f).code ++ be2 c.seq.toNat)

/-- R51, R65: DECL_GAP raised, with the sender, the expected or last received value, and the sequence received. -/
def State.raiseGap (s : State) (f : Fw) (want got : Word16) : State :=
  s.raise .declGap (be1 (Fw.code f) ++ be2 want.toNat ++ be2 got.toNat)

/-- R51: the sequence check of an accepted DECLARE. -/
def State.checkSequence (s : State) (f : Fw) (n : Word16) : State :=
  let s1 := match s.decl.get f with
    | some r => if r.expected = n then s else s.raiseGap f r.expected n
    | none => s
  { s1 with decl := s1.decl.set f (some { expected := n + 1, lastReceived := n }) }

/-! ## Refused records (R54) -/

/-- R54: the counter of a refusal reason. -/
def RefusalReason.counter : RefusalReason → Counter
  | .badRecord => .refusedBadRecord
  | .keyClash => .refusedKeyClash
  | .tableFull => .refusedTableFull
  | .bucketFull => .refusedBucketFull

/-- R192: a canonical key's bytes, nothing for an absent one. -/
def keyBytes : Option Key → List Byte
  | some k => (k.map (fun w => beBytes 2 w.toNat)).flatten
  | none => []

/-- R54: a record refused. -/
def State.refuseRecord (s : State) (f : Fw) (seq : Word16) (pos : Nat) (why : RefusalReason) (key : Option Key) : State :=
  (s.raise .declRefused (be1 (Fw.code f) ++ be2 seq.toNat ++ be1 pos ++ be1 why.code ++ keyBytes key)).inc why.counter

/-! ## PUT (R55 to R62) -/

/-- R11: the record's inside key. -/
def DeclRecord.insideKey (r : DeclRecord) : Key := tupleKey r.family r.proto .inside r.inside

/-- R11: the record's outside key. -/
def DeclRecord.outsideKey (r : DeclRecord) : Key := tupleKey r.family r.proto .outside r.outside

/-- The fields a record declares of an entry. -/
def DeclRecord.declared (r : DeclRecord) (f : Fw) : Declared :=
  { inside := r.inside, declaredBy := f, fwState := r.fwState, policy := r.policy, blob := r.blob }

/-- R2: the entry that a PUT allocates. -/
def DeclRecord.newEntry (r : DeclRecord) (f : Fw) : Entry :=
  { family := r.family
    proto := r.proto
    outside := r.outside
    initiator := r.initiator
    agingClass := r.agingClass
    idleTag := 0
    tcp := if r.proto = .tcp then some (Tracking.fresh.withScales r.scales) else none
    body := .live (r.declared f) (.fresh r.proto) .fresh }

/-- R2, R59: a TENTATIVE entry as its promotion leaves it. -/
def Entry.promote (e : Entry) (r : DeclRecord) (f : Fw) : Entry :=
  { e with
    initiator := r.initiator
    agingClass := r.agingClass
    idleTag := 0
    tcp := e.tcp.map (·.withScales r.scales)
    body := .live (r.declared f) (.fresh e.proto) .fresh }

/-- R56: the declared fields of a LIVE entry replaced; the body of an entry of another phase is left. -/
def Body.redeclare (b : Body) (d : Declared) : Body :=
  match b with
  | .live _ m l => .live d m l
  | .tentative => .tentative
  | .retiring d0 m bs => .retiring d0 m bs

/-- R56: a LIVE entry's content replaced. The outside tuple is kept, labels and all, when its key is the record's. -/
def Entry.replace (e : Entry) (r : DeclRecord) (f : Fw) : Entry :=
  { e with
    outside := if e.outsideKey = r.outsideKey then e.outside else r.outside
    initiator := r.initiator
    agingClass := r.agingClass
    idleTag := 0
    tcp := e.tcp.map (·.withScales r.scales)
    body := e.body.redeclare (r.declared f) }

/-- R58: the tracking that a remap carries out of a TENTATIVE entry into a LIVE one. -/
def carriedTracking (e t : Entry) (r : DeclRecord) : Option Tracking :=
  match e.tcp, t.tcp with
  | some live, some tent =>
    if live.noEdges then
      some (if t.outside.loc ≠ t.outside.rem ∧ t.outside.loc = r.outside.rem then tent.swapped else tent)
    else some live
  | _, _ => e.tcp

/-- R57, R58: a TENTATIVE holder of the new outside key is absorbed by the entry at `h`. -/
def State.absorb (s : State) (h : Nat) (r : DeclRecord) : State :=
  match s.holderIn r.outsideKey .tentative with
  | none => s
  | some g =>
    match s.entry? g with
    | none => s
    | some t => (s.modifyEntry h (fun e => { e with tcp := carriedTracking e t r })).freeEntry g

/-- R57 step 3: no room is needed for the new outside key, or its bucket has an empty slot. -/
def State.remapRoom (s : State) (e : Entry) (r : DeclRecord) : Bool :=
  (s.holderIn r.outsideKey .tentative).isSome || s.bucket r.outsideKey == s.bucket e.outsideKey ||
    s.bucketRoom (s.bucket r.outsideKey)

/-- R57 step 4: the remap made. -/
def State.remap (s : State) (h : Nat) (r : DeclRecord) : State :=
  ((s.absorb h r).placeKey h .outside r.outsideKey).setWaits h (s.retiringHolders r.insideKey r.outsideKey)

/-- R56, R57: case a, a LIVE entry holds the record's inside key. -/
def State.putReplace (s : State) (f : Fw) (r : DeclRecord) (h : Nat) (e : Entry) : Except RefusalReason (Nat × State) :=
  if e.outsideKey = r.outsideKey then .ok (h, s.modifyEntry h (·.replace r f))
  else if (s.holderIn r.outsideKey .live).isSome then .error .keyClash
  else if Config.maxWaits < (s.retiringHolders r.insideKey r.outsideKey).length then .error .keyClash
  else if !s.remapRoom e r then .error .bucketFull
  else .ok (h, (s.remap h r).modifyEntry h (·.replace r f))

/-- R59: case b, a TENTATIVE entry holds the record's outside key. -/
def State.putPromote (s : State) (f : Fw) (r : DeclRecord) (h : Nat) : Except RefusalReason (Nat × State) :=
  if Config.maxWaits < (s.retiringHolders r.insideKey r.outsideKey).length then .error .keyClash
  else if !s.bucketRoom (s.bucket r.insideKey) then .error .bucketFull
  else
    let s1 := (s.modifyEntry h (·.promote r f)).placeKey h .inside r.insideKey
    let s2 := { s1 with table := { s1.table with tentative := s1.table.tentative - 1 } }
    .ok (h, (s2.setWaits h (s.retiringHolders r.insideKey r.outsideKey)).inc .entriesPromoted)

/-- R17, R61: the buckets have room for both keys of a new LIVE entry. -/
def State.roomForBoth (s : State) (ki ko : Key) : Bool :=
  if s.bucket ki = s.bucket ko then decide (s.bucketLoad (s.bucket ki) + 2 ≤ Config.slotsPerBucket)
  else s.bucketRoom (s.bucket ki) && s.bucketRoom (s.bucket ko)

/-- R61: case d, a new LIVE entry. -/
def State.putAllocate (s : State) (f : Fw) (r : DeclRecord) : Except RefusalReason (Nat × State) :=
  match s.freeHandle with
  | none => .error .tableFull
  | some h =>
    if !s.roomForBoth r.insideKey r.outsideKey then .error .bucketFull
    else if Config.maxWaits < (s.retiringHolders r.insideKey r.outsideKey).length then .error .keyClash
    else
      let s1 := ((s.addEntry h (r.newEntry f)).placeKey h .inside r.insideKey).placeKey h .outside r.outsideKey
      .ok (h, ((s1.setWaits h (s.retiringHolders r.insideKey r.outsideKey)).inc .entriesCreated).compareTable)

/-- R55, R60: a PUT matched and made; the handle of the entry, or the reason of the refusal. -/
def State.put (s : State) (f : Fw) (r : DeclRecord) : Except RefusalReason (Nat × State) :=
  match s.holderIn r.insideKey .live with
  | some h =>
    match s.entry? h with
    | some e => s.putReplace f r h e
    | none => .error .keyClash
  | none =>
    match s.holderIn r.outsideKey .tentative with
    | some h => s.putPromote f r h
    | none => if (s.holderIn r.outsideKey .live).isSome then .error .keyClash else s.putAllocate f r

/-! ## What an accepted PUT hands on (R63, R158) -/

/-- R63, R92, R93, R158: an accepted PUT counted and handed to the Mirror Engine, then the mark looked at. -/
def State.handOnPut (s : State) (f : Fw) (h : Nat) : State :=
  let s1 := s.inc .declAccepted
  let s2 := if s1.mirror.target = some f then s1.putFromTarget h else s1.putFromOther h
  if s.isLateSource f && s.role.active != f then s2.reMark h else s2

/-! ## DROP (R64) -/

/-- R64: the entry a DROP names: a LIVE holder of the inside key, else a LIVE or TENTATIVE holder of the outside key. -/
def State.dropTarget? (s : State) (r : DeclRecord) : Option Nat :=
  match s.holderIn r.insideKey .live with
  | some h => some h
  | none => s.lookup r.outsideKey

/-- R64: a DROP. -/
def State.drop (s : State) (r : DeclRecord) : State :=
  match s.dropTarget? r with
  | some h => (s.retire h).inc .declAccepted
  | none => s.inc .dropMiss

/-! ## The walk (R52, R53) -/

/-- R52 to R64: one record that can be stepped over. -/
def State.applyRecord (s : State) (f : Fw) (seq : Word16) (pos : Nat) (bs : List Byte) : State :=
  match readDecl bs with
  | none => s.refuseRecord f seq pos .badRecord (badRecordKey bs)
  | some r =>
    if r.put then
      match s.put f r with
      | .ok (h, s1) => s1.handOnPut f h
      | .error why => s.refuseRecord f seq pos why (some r.outsideKey)
    else s.drop r

/-- R52: the walk of at most `n` records, the next at position `pos`; what it leaves, and the records it reached. -/
def State.walkRecords (f : Fw) (seq : Word16) : Nat → Nat → State → List Byte → State × Nat
  | 0, pos, s, _ => (s, pos - 1)
  | _ + 1, pos, s, [] => (s, pos - 1)
  | n + 1, pos, s, b :: bs =>
    match declStep (b :: bs) with
    | none => (s.refuseRecord f seq pos .badRecord (badRecordKey (b :: bs)), pos)
    | some len =>
      State.walkRecords f seq n (pos + 1) (s.applyRecord f seq pos ((b :: bs).take len)) ((b :: bs).drop len)

/-- R51 to R64: an accepted DECLARE, up to the tests that end its event. -/
def State.takeDeclare (s : State) (f : Fw) (c : Ccf) : State :=
  let r := State.walkRecords f c.seq (min c.records Config.declRecords) 1 (s.checkSequence f c.seq) c.payload
  r.1.add .declUnwalked (c.records - r.2)

/-- R47 to R64: a DECLARE from a firewall, as one event. -/
def State.declareFrom (s : State) (f : Fw) (c : Ccf) : State :=
  if s.acceptsDeclare f then s.asEvent (fun t => (t.takeDeclare f c).finish) else s.refuseWrongRole f c

/-! ## FLUSHED (R65) -/

/-- R65: the comparison a FLUSHED makes with the last DECLARE received. -/
def State.compareFlushed (s : State) (f : Fw) (n : Word16) : State :=
  match s.decl.get f with
  | some r => if r.lastReceived = n then s else s.raiseGap f r.lastReceived n
  | none => s

/-- R65: a FLUSHED from a firewall. -/
def State.flushedFrom (s : State) (f : Fw) (c : Ccf) : State :=
  if s.role.phase = .quiesce ∧ s.role.source = some f then (s.compareFlushed f c.seq).asEvent State.makeTransfer
  else s.inc .flushedIgnored

end Sys2Proof.Machine
end

