-- ==== Sys2Proof/Machine/FramePath.lean ====
section
/-! DEFINITION. Frame Path and Steering (chapter 4): classes (R73 to R77), steering (R79 to R82), TENTATIVE entries (R19 to
R21), and one data frame through the path (R83, R84). -/

namespace Sys2Proof.Machine

/-! ## Classes (R74, R77) -/

/-- R188: the class a code names; a code past the last names DISCARD. -/
def classOf (n : Nat) : FrameClass :=
  match n with
  | 0 => .track
  | 1 => .pass
  | 2 => .shadow
  | _ => .discard

/-- R188: the bits of an address of the family. -/
def Family.bits : Family → Nat
  | .v4 => 32
  | .v6 => 128

/-- R77: the first `len` bits of an address of the family. -/
def leadingBits (fam : Family) (len : Nat) (a : IpAddr) : Nat := a.toNat >>> (fam.bits - len)

/-- R77: the row matches an address of the family. -/
def PrefixRow.matchesAddr (r : PrefixRow) (fam : Family) (a : IpAddr) : Bool :=
  r.valid && r.family == fam && leadingBits fam r.length a == leadingBits fam r.length r.addr

/-- R77: the row matches either address of a frame. -/
def PrefixRow.matchesView (r : PrefixRow) (v : SessionView) : Bool :=
  r.matchesAddr v.family v.dst.addr || r.matchesAddr v.family v.src.addr

/-- R77: among rows taken in order, the matching one of the greatest length, the lowest-numbered among equals. -/
def bestRow (v : SessionView) : List PrefixRow → Option PrefixRow → Option PrefixRow
  | [], best => best
  | r :: rs, none => bestRow v rs (if r.matchesView v then some r else none)
  | r :: rs, some b => bestRow v rs (if r.matchesView v && decide (b.length < r.length) then some r else some b)

/-- R77: the class the Prefix Class Table gives a session frame. -/
def State.prefixClass (s : State) (v : SessionView) : FrameClass :=
  match bestRow v s.prefixes.toList none with
  | some r => r.cls
  | none => .track

/-- R73 to R77: the class of a data frame. -/
def State.classify (s : State) (r : Reading) : FrameClass :=
  match r with
  | .nonIp => classOf (s.param .nonIpClass)
  | .pass => .pass
  | .session v => s.prefixClass v

/-! ## Steering (R79 to R82) -/

/-- R81: steering refuses data frames from the port. -/
def State.refusesPort (s : State) (p : Port) : Bool :=
  match p.fw? with
  | some f => f != s.role.active && s.oldActive != some f
  | none => false

/-- R79: the port a data frame that is not refused is steered to. -/
def State.steer (s : State) (p : Port) : Port :=
  match p with
  | .lan => s.role.active.inPort
  | .wan => s.role.active.outPort
  | .aIn => .lan
  | .bIn => .lan
  | .aOut => .wan
  | .bOut => .wan

/-- R80: the standby's port on the side of a frame from LAN or WAN, when there is a standby. -/
def State.shadowPort (s : State) (p : Port) : Option Port :=
  match p with
  | .lan => s.standby.map Fw.inPort
  | .wan => s.standby.map Fw.outPort
  | _ => none

/-- R80: a SHADOW frame handed on. -/
def State.forwardShadow (s : State) (p : Port) (f : Frame) : State :=
  let s1 := s.handTx (s.steer p) f
  match s.shadowPort p with
  | some q => s1.handTx q f
  | none => s1

/-! ## TENTATIVE entries (R19 to R21) -/

/-- R19: the frame is a qualifying SYN on the outside side. -/
def qualifiesSyn (p : Port) (v : SessionView) : Bool :=
  match v.seg with
  | some g => p.outside && v.proto == .tcp && g.syn && !g.ackFlag && !g.rst
  | none => false

/-- R19: the TENTATIVE entry of a qualifying SYN. -/
def tentativeEntry (p : Port) (v : SessionView) : Entry :=
  { family := v.family
    proto := .tcp
    outside := if p = .wan then { loc := v.dst, rem := v.src } else { loc := v.src, rem := v.dst }
    initiator := if p = .wan then .rem else .loc
    agingClass := 0
    idleTag := 0
    tcp := some .fresh
    body := .tentative }

/-- R21: the tentative count is below the tentative limit. -/
def State.belowLimit (s : State) : Bool := decide (s.table.tentative < s.param .tentativeLimit)

/-- R20: a SYN left untracked. -/
def State.untrackedSyn (s : State) : State :=
  let s1 := s.inc .untrackedSyn
  if s.belowLimit then s1
  else s1.raise .tentativeLimit (be2 (s.param .tentativeLimit) ++ be2 s.table.tentative)

/-- R19: the entry created at a free handle and the SYN tracked against it. -/
def State.createTentative (s : State) (p : Port) (v : SessionView) (h : Nat) : State :=
  let s1 := (s.addEntry h (tentativeEntry p v)).placeKey h .outside (frameKey p v)
  (((s1.inc .tentativeCreated).compareTable).trackFrame h p v)

/-- R19, R20: a forwarded frame that matched nothing. -/
def State.afterMiss (s : State) (p : Port) (v : SessionView) : State :=
  if !qualifiesSyn p v then s
  else match s.freeHandle with
    | some h =>
      if s.belowLimit && s.bucketRoom (s.bucket (frameKey p v)) then s.createTentative p v h else s.untrackedSyn
    | none => s.untrackedSyn

/-! ## One data frame (R83, R84) -/

/-- R168: a frame that arrived at the port may park. -/
def mayPark (p : Port) : Bool := p == .lan || p == .wan

/-- R83 steps 3 to 5: a TRACK frame. -/
def State.trackedFrame (s : State) (p : Port) (v : SessionView) (f : Frame) : State :=
  match s.lookup (frameKey p v) with
  | some h =>
    match s.entry? h with
    | some e => if mayPark p && e.parks then s.parkFrame h e p f else s.forwardMatched h p (s.steer p) v f
    | none => s.handTx (s.steer p) f
  | none =>
    if s.canHand (s.steer p) then (s.handTx (s.steer p) f).afterMiss p v else s.handTx (s.steer p) f

/-- R83 step 5: a frame handed on by its class. -/
def State.forwardByClass (s : State) (p : Port) (r : Reading) (f : Frame) : State :=
  match s.classify r, r with
  | .discard, _ => s.inc .discard
  | .shadow, _ => s.forwardShadow p f
  | .track, .session v => s.trackedFrame p v f
  | _, _ => s.handTx (s.steer p) f

/-- R83: a data frame taken at a port. -/
def State.dataFrame (s : State) (p : Port) (f : Frame) : State :=
  if s.refusesPort p then s.inc .standbyEmit else s.forwardByClass p (readFrame f) f

end Sys2Proof.Machine
end

