-- ==== Sys2Proof/Machine/Management.lean ====
section
/-! DEFINITION. Management requests (chapter 10): the Request Queue and the REPLY (R194 to R197), the parameters (R198 to
R200), the Prefix Class Table's rows (R205), the flags and counters (R204, R213), and the commands (R206 to R208). -/

namespace Sys2Proof.Machine

/-! ## The Request Queue (R194) -/

/-- R194: a QUERY as it is queued. -/
def requestOf (p : Port) (c : Ccf) : Request :=
  { code := byteAt c.payload 0, id := c.seq, args := c.payload.drop 1, port := p, source := c.source }

/-- R194: a QUERY joins the Request Queue, or is dropped and counted when the queue holds 4. -/
def State.queueRequest (s : State) (q : Request) : State :=
  if s.requests.length < Config.requestDepth then { s with requests := s.requests ++ [q] } else s.inc .reqOverflow

/-! ## Serving (R195, R196) -/

/-- What a request comes to: its status, its results, and the state its changes leave. -/
structure Answer where
  status : Status
  results : List Byte
  state : State
deriving DecidableEq, Repr

/-- A request refused: no results and no change. -/
def State.refuse (s : State) (st : Status) : Answer := { status := st, results := [], state := s }

/-- R193: a status whose REPLY carries results. -/
def Status.hasResults : Status → Bool
  | .ok => true
  | .clamped => true
  | .unknown => false
  | .badArg => false
  | .notPermitted => false
  | .busy => false
  | .notReady => false

/-- R195: the address a REPLY goes to. -/
def Request.replyTo (q : Request) : Mac := if isGroup q.source then Config.broadcast else q.source

/-- R193: the payload of the REPLY to a request. -/
def Answer.payload (a : Answer) (q : Request) : List Byte :=
  [q.code] ++ be1 a.status.code ++ (if a.status.hasResults then a.results else [])

/-- R193, R195: the REPLY built from the state that the request's changes leave, and handed to the arrival port. -/
def Answer.send (a : Answer) (q : Request) : State :=
  a.state.handTx q.port (ccfFrame q.replyTo a.state.unitAddress .reply 0#8 0#8 q.id (a.payload q))

/-- R195: a request from the port is served now. -/
def State.canServe (s : State) (p : Port) : Bool :=
  (s.port p).link == .down || decide ((s.port p).tx.length < Config.txDepth)

/-- R195: the request at the head of the queue, if the command is the one that serves it and it is served now. -/
def State.headFor (s : State) (mine : Byte → Bool) : Option (Request × State) :=
  match s.requests with
  | [] => none
  | q :: rest => if mine q.code && s.canServe q.port then some (q, { s with requests := rest }) else none

/-- R195: the head request served by the rule given, if the command is the one that serves it. -/
def State.serve (s : State) (mine : Byte → Bool) (judge : State → Request → Answer) : State :=
  match s.headFor mine with
  | some (q, s1) => (judge s1 q).send q
  | none => s

/-- R196: the code is one of the fifteen. -/
def knownCode (b : Byte) : Bool :=
  decide (1 ≤ b.toNat ∧ b.toNat ≤ 11) || decide (16 ≤ b.toNat ∧ b.toNat ≤ 19)

/-! ## Permission (R197) -/

/-- Both firewalls are ABSENT. -/
def State.bothAbsent (s : State) : Bool := (s.fw .a).state == .absent && (s.fw .b).state == .absent

/-- R197: a read from the port is permitted. -/
def State.permitsRead (s : State) (p : Port) : Bool :=
  match p with
  | .aIn => true
  | .bIn => true
  | .lan => s.lanOn
  | .wan => false
  | .aOut => false
  | .bOut => false

/-- R197: a write from the port is permitted. -/
def State.permitsWrite (s : State) (p : Port) : Bool :=
  match p with
  | .aIn => s.role.active == .a || s.bothAbsent
  | .bIn => s.role.active == .b || s.bothAbsent
  | .lan => s.lanOn
  | .wan => false
  | .aOut => false
  | .bOut => false

/-- R196: a read judged: permission, then the rule on the arguments when there are enough of them. -/
def State.judgeRead (s : State) (q : Request) (need : Nat) (body : State → List Byte → Answer) : Answer :=
  if !s.permitsRead q.port then s.refuse .notPermitted
  else if q.args.length < need then s.refuse .badArg
  else body s q.args

/-- R196: a write judged: permission, then the rule on the arguments when there are enough of them. -/
def State.judgeWrite (s : State) (q : Request) (need : Nat) (body : State → List Byte → Answer) : Answer :=
  if !s.permitsWrite q.port then s.refuse .notPermitted
  else if q.args.length < need then s.refuse .badArg
  else body s q.args

/-! ## Parameters (R198 to R200) -/

/-- R199: the kinds of parameter. -/
inductive ParamKind where
  | address
  | enumerated (lo hi : Nat)
  | numeric (lo hi : Nat)
  | mask (bits : Nat)
  | seed
deriving DecidableEq, Repr

/-- R198: the kind and range of the parameter with an id less 1. -/
def paramKind (i : Fin 37) : ParamKind :=
  match i.val with
  | 0 => .address
  | 1 => .enumerated 0 2
  | 2 => .enumerated 0 1
  | 3 => .enumerated 0 1
  | 4 => .numeric 1 15
  | 5 => .numeric 1 60
  | 6 => .numeric 10 1000
  | 7 => .numeric 2 15
  | 8 => .numeric 1 15
  | 9 => .numeric 0 3600
  | 10 => .numeric 1 60
  | 11 => .numeric 10 5000
  | 12 => .numeric 0 5000
  | 13 => .numeric 1 60
  | 14 => .numeric 1 16
  | 15 => .numeric 1 255
  | 16 => .numeric 1 7
  | 17 => .numeric 1 24
  | 18 => .numeric 1 65535
  | 19 => .numeric 1 65535
  | 20 => .numeric 1 65535
  | 21 => .numeric 1 65535
  | 22 => .numeric 1 255
  | 23 => .numeric 0 4096
  | 24 => .seed
  | 25 => .numeric 1 255
  | 26 => .numeric 1 32
  | 27 => .numeric 1 100
  | 28 => .numeric 1 100
  | 29 => .numeric 1 100
  | 30 => .numeric 1 100
  | 31 => .numeric 1 100
  | 32 => .numeric 1 100
  | 33 => .mask 65535
  | 34 => .mask 7
  | 35 => .enumerated 0 1
  | _ => .enumerated 1 3

/-- R199: a value brought into a range. -/
def clamp (lo hi v : Nat) : Nat := max lo (min hi v)

/-- R199, R200: what a parameter of the kind stores for a value written; none where the value is refused BAD_ARG. -/
def ParamKind.store (k : ParamKind) (v : Nat) : Option Nat :=
  match k with
  | .address => if isGroup (BitVec.ofNat 48 v) then none else some v
  | .enumerated lo hi => if lo ≤ v ∧ v ≤ hi then some v else none
  | .numeric lo hi => some (clamp lo hi v)
  | .mask bits => some (v &&& bits)
  | .seed => some (clamp 0 65535 v)

/-- R198: a value is written and read as 4 bytes, the unit address as 6. -/
def paramBytes (i : Fin 37) : Nat := if i.val = 0 then 6 else 4

/-- R196: the parameter that an id names. -/
def paramIndex (b : Byte) : Option (Fin 37) :=
  if h : 1 ≤ b.toNat ∧ b.toNat ≤ 37 then some ⟨b.toNat - 1, by omega⟩ else none

/-- R199: the results of GET_PARAM and SET_PARAM: the parameter's id and a value. -/
def paramResults (i : Fin 37) (v : Nat) : List Byte := be1 (i.val + 1) ++ beBytes (paramBytes i) v

/-- R199: GET_PARAM of the parameter with an index. -/
def State.getParamOf (s : State) (args : List Byte) : Answer :=
  match paramIndex (byteAt args 0) with
  | none => s.refuse .unknown
  | some i => { status := .ok, results := paramResults i s.params[i], state := s }

/-- R199: a value stored in a parameter. -/
def State.storeParam (s : State) (i : Fin 37) (written stored : Nat) : Answer :=
  { status := if stored = written then .ok else .clamped
    results := paramResults i stored
    state := { s with params := s.params.set i stored } }

/-- R199, R200: SET_PARAM of the parameter with an id. -/
def State.setParamOf (s : State) (args : List Byte) : Answer :=
  match paramIndex (byteAt args 0) with
  | none => s.refuse .unknown
  | some i =>
    let v := beNat ((args.drop 1).take (paramBytes i))
    if args.length < 1 + paramBytes i then s.refuse .badArg
    else if paramKind i = .seed ∧ s.table.occupancy ≠ 0 then s.refuse .busy
    else match (paramKind i).store v with
      | none => s.refuse .badArg
      | some w => s.storeParam i v w

/-! ## Counters and flags (R204, R213) -/

/-- R204, R215: the fifty-one counters, 4 bytes each. -/
def State.counterBytes (s : State) : List Byte := (s.counters.toList.map be4).flatten

/-- R197: the clear flag of a GET_COUNTERS is set; one that is missing counts as 0. -/
def clearFlag (args : List Byte) : Bool := byteAt args 0 != 0#8

/-- R204: GET_COUNTERS once it is permitted. -/
def State.countersOf (s : State) (args : List Byte) : Answer :=
  { status := .ok
    results := s.counterBytes
    state := if clearFlag args then { s with counters := Vector.replicate 51 0 } else s }

/-- R197, R204: GET_COUNTERS, a write when its clear flag is set. -/
def State.judgeCounters (s : State) (q : Request) : Answer :=
  if clearFlag q.args then s.judgeWrite q 1 State.countersOf else s.judgeRead q 1 State.countersOf

/-- The event flags as a number, bit n − 1 for event code n, and so for any list of flags, lowest bit first. -/
def flagMask (es : List EventState) : Nat := es.foldr (fun e n => 2 * n + e.flag.toNat) 0

/-- R204: GET_EVENTS. -/
def State.eventsOf (s : State) : Answer :=
  { status := .ok
    results := be2 (flagMask s.events.toList) ++ be2 (s.param .noticeEnable) ++
      (s.events.toList.map (fun e => be2 e.count)).flatten
    state := s }

/-- R204, R213: CLEAR_EVENTS. -/
def State.clearEventsOf (s : State) (args : List Byte) : Answer :=
  let mask := (word16At args 0).toNat
  let es := s.events.mapFinIdx (fun i e _ => if mask.testBit i then { flag := false, count := 0 } else e)
  { status := .ok, results := be2 (flagMask es.toList), state := { s with events := es } }

/-! ## Prefix Class Table rows (R205) -/

/-- R205: the results that carry a row: its number, valid, family, length, class and prefix. That SET_PREFIX writes the number
too is a DESIGN CHOICE, log entry 33. -/
def rowResults (n : Nat) (r : PrefixRow) : List Byte :=
  be1 n ++ beFlag r.valid ++ be1 r.family.code ++ be1 r.length ++ be1 r.cls.code ++ beBytes r.family.addrBytes r.addr.toNat

/-- R205: the row that the arguments of SET_PREFIX give, of a family; its length is the family's at most. -/
def readRow (fam : Family) (args : List Byte) : PrefixRow :=
  { valid := byteAt args 1 == 1#8
    family := fam
    addr := ipAt args 5 fam.addrBytes
    length := min (byteAt args 3).toNat fam.bits
    cls := classOf (byteAt args 4).toNat }

/-- R205: SET_PREFIX. -/
def State.setPrefixOf (s : State) (args : List Byte) : Answer :=
  match familyOf (byteAt args 2) with
  | none => s.refuse .badArg
  | some fam =>
    if h : (byteAt args 0).toNat < 32 then
      if (byteAt args 1).toNat ≤ 1 ∧ (byteAt args 4).toNat ≤ 3 ∧ 5 + fam.addrBytes ≤ args.length then
        { status := if (byteAt args 3).toNat ≤ fam.bits then .ok else .clamped
          results := rowResults (byteAt args 0).toNat (readRow fam args)
          state := { s with prefixes := s.prefixes.set (byteAt args 0).toNat (readRow fam args) h } }
      else s.refuse .badArg
    else s.refuse .badArg

/-- R205: GET_PREFIX. -/
def State.getPrefixOf (s : State) (args : List Byte) : Answer :=
  if h : (byteAt args 0).toNat < 32 then
    { status := .ok, results := rowResults (byteAt args 0).toNat (s.prefixes[(byteAt args 0).toNat]'h), state := s }
  else s.refuse .badArg

/-! ## Commands (R206 to R208) -/

/-- R146, R206: SWITCHOVER. -/
def State.switchoverOf (s : State) (args : List Byte) : Answer :=
  let r := s.judgeSwitchover (byteAt args 0 != 0#8)
  { status := r.1, results := [], state := r.2 }

/-- R206: RESYNC. -/
def State.resyncOf (s : State) : Answer :=
  if s.role.phase ≠ .none then s.refuse .busy
  else match s.mirror.target with
    | none => s.refuse .notReady
    | some f => { status := .ok, results := [], state := s.walkStart f }

/-- R207: the retire a PURGE makes, as one event with the tests that end it. -/
def State.purgeEntry (s : State) (h : Nat) : State := s.asEvent (fun t => (t.retire h).finish)

/-- R207: PURGE. -/
def State.purgeOf (s : State) (args : List Byte) : Answer :=
  let h := (word16At args 0).toNat
  if h < Config.handles then
    let s1 := s.purgeEntry h
    { status := .ok, results := be1 (s1.phase h).code, state := s1 }
  else s.refuse .badArg

/-- R29: the parked frames of every entry. -/
def State.parkedFrames (s : State) : Nat := (s.table.entries.map (fun x => x.2.chain.length)).sum

/-- R29, R208: the sessions are forgotten: every entry freed, every slot emptied, every chain and the Release Queue
emptied. The level flags stay as they are. -/
def State.emptyTable (s : State) : State :=
  ({ s with
    table := { s.table with entries := [], slots := [], occupancy := 0, tentative := 0 }
    park := { s.park with cellsInUse := 0, framesHeld := 0, releaseQueue := [] } }.add
      .entriesFreed s.table.entries.length).add .parkDiscarded s.parkedFrames

/-- R119: the Mirror Engine with no batch, no queued entry and no walk. -/
def Mirror.emptied (m : Mirror) : Mirror :=
  { m with state := .idle, urgent := [], normal := [], slots := [], walkPending := 0 }

/-- R119, R208: what TABLE_RESET does in phase NONE. The walk it starts is counted as R111 and R113 say: DEDUCED, log entry 34. -/
def State.tableReset (s : State) : State :=
  let s1 := s.emptyTable
  let s2 := { s1 with mirror := s1.mirror.emptied }
  match s2.mirror.target with
  | some f => s2.walkStart f
  | none => s2

/-- R208: TABLE_RESET. -/
def State.tableResetOf (s : State) : Answer :=
  if s.role.phase ≠ .none then s.refuse .busy else { status := .ok, results := [], state := s.tableReset }

end Sys2Proof.Machine
end

