-- ==== Sys2Proof/Machine/Reports.lean ====
section
/-! DEFINITION. The requests that report state: GET_STATUS (R201), GET_ENTRY and FIND_ENTRY (R202) and LIST (R203), in the
encodings of R189. -/

namespace Sys2Proof.Machine

/-! ## GET_STATUS (R201) -/

/-- R189: a role timer's byte. -/
def Timer.byte : Timer → List Byte
  | .stopped => be1 0
  | .running _ => be1 1

/-- R189: the startup wait's byte. -/
def StartupWait.byte : StartupWait → List Byte
  | .running _ => be1 1
  | .over => be1 2

/-- R189: the fitness dwell's byte. -/
def Dwell.byte : Dwell → List Byte
  | .stopped => be1 0
  | .running _ => be1 1
  | .complete => be1 2

/-- R201: the six timers in the order of R139's table. -/
def Role.timerBytes (r : Role) : List Byte :=
  r.startup.byte ++ r.holdDown.byte ++ r.dwell.byte ++ r.quiesce.byte ++ r.lateWindow.byte ++ r.cutLimit.byte

/-- R201: the cutover record in the order of R138. -/
def CutRecord.bytes (c : CutRecord) : List Byte :=
  be2 c.markedAtTransfer ++ be2 c.reMarked ++ be2 c.confirmed ++ be2 c.released ++ be4 c.parked ++ be4 c.dropped

/-- R201: the roles' part. -/
def State.roleBytes (s : State) : List Byte :=
  be1 (Fw.code s.role.active) ++ be1 (fwCode s.standby) ++ be1 s.role.phase.code ++ be1 (cutKindCode s.role.kind) ++
    be1 (cutReasonCode s.role.reason) ++ be1 (fwCode s.role.source) ++ be1 (fwCode s.role.dest) ++
    be2 s.role.epoch.toNat ++ beFlag s.role.dark ++ s.role.timerBytes ++ be2 s.role.marked ++ s.role.record.bytes

/-- R189: the byte of a down reason, 0 when it is absent. -/
def HealthState.reasonCode : HealthState → Nat
  | .down r => r.code
  | .absent => 0
  | .joining => 0
  | .up => 0
  | .suspect => 0

/-- R201: one firewall's health part. -/
def HealthRecord.bytes (h : HealthRecord) : List Byte :=
  be1 h.state.code ++ be1 h.state.reasonCode ++ be1 h.misses ++ be1 h.good ++ be1 h.fitness ++ be1 h.claimed.code ++
    be2 h.lastSeq.toNat ++ beMac h.learned

/-- R201: the mirror's part. -/
def Mirror.bytes (m : Mirror) : List Byte :=
  be1 (fwCode m.target) ++ be1 m.state.code ++ be2 m.cursor ++ be2 m.walkPending ++ be1 m.slots.length ++
    be2 m.urgent.length ++ be2 m.normal.length ++ be1 m.timeouts

/-- R201: three level flags. -/
def Levels.bytes (l : Levels) : List Byte := beFlag l.l1 ++ beFlag l.l2 ++ beFlag l.l3

/-- R201: the results of GET_STATUS. The orders inside a group, A's health before B's among them, are DEDUCED: log entry 20. -/
def State.statusBytes (s : State) : List Byte :=
  s.roleBytes ++ (s.fw .a).bytes ++ (s.fw .b).bytes ++ s.mirror.bytes ++
    (be2 s.table.occupancy ++ be2 s.table.tentative ++ s.table.levels.bytes) ++
    (be2 s.park.cellsInUse ++ be2 s.park.framesHeld ++ be2 s.park.releaseQueue.length ++ s.park.levels.bytes) ++
    (be1 s.ports.lan.link.code ++ be1 s.ports.wan.link.code ++ be1 s.ports.aIn.link.code ++ be1 s.ports.aOut.link.code ++
      be1 s.ports.bIn.link.code ++ be1 s.ports.bOut.link.code)

/-- R201: GET_STATUS; the level flags are cleared once the results are built. -/
def State.statusOf (s : State) : Answer := { status := .ok, results := s.statusBytes, state := s.clearLevels }

/-! ## GET_ENTRY and FIND_ENTRY (R202) -/

/-- R189: a field with its presence byte; an absent one is its presence byte alone. -/
def presence : Option (List Byte) → List Byte
  | some bs => be1 1 ++ bs
  | none => be1 0

/-- R189: edges, each its valid byte and its value, with the free values taken so far counted on. An edge whose valid
flag is clear has a free value: the spec states none (log entry 7). -/
def edgeFields : Nat → List (Option Seq32) → List Byte × Nat
  | n, [] => ([], n)
  | n, some v :: es => (be1 1 ++ beBytes 4 v.toNat ++ (edgeFields n es).1, (edgeFields n es).2)
  | n, none :: es =>
    (be1 0 ++ beBytes 4 (Config.freeEdge n).toNat ++ (edgeFields (n + 1) es).1, (edgeFields (n + 1) es).2)

/-- R1: the six edges of the TCP tracking. -/
def Tracking.edgeList (t : Tracking) : List (Option Seq32) :=
  [t.out.hiSeq, t.out.hiAck, t.out.maxWin, t.inn.hiSeq, t.inn.hiAck, t.inn.maxWin]

/-- R1: the four mirrored edges. R1 and R189 name no order of the two directions here: OUT before IN is the model's choice, DEDUCED from
the order R1 gives the TCP tracking (log entry 19). -/
def MirEdges.edgeList (m : MirEdges) : List (Option Seq32) := [m.out.hiSeq, m.out.hiAck, m.inn.hiSeq, m.inn.hiAck]

/-- R189, R202: the TCP tracking field. -/
def trackingField (n : Nat) : Option Tracking → List Byte × Nat
  | some t =>
    (presence (some ((edgeFields n t.edgeList).1 ++ be1 t.scaleOut ++ be1 t.scaleIn ++ beFlag t.scaleKnown ++
      be1 t.anomalies)), (edgeFields n t.edgeList).2)
  | none => (presence none, n)

/-- R189, R202: the mirrored edges field. -/
def mirroredField (n : Nat) : Option MirEdges → List Byte × Nat
  | some m => (presence (some (edgeFields n m.edgeList).1), (edgeFields n m.edgeList).2)
  | none => (presence none, n)

/-- R189: an initiator's byte. -/
def Initiator.code : Initiator → Nat
  | .loc => 0
  | .rem => 1

/-- R189: a lane's byte. -/
def laneCode : Option Lane → Nat
  | none => 0
  | some .normal => 1
  | some .urgent => 2

/-- R189: a queued kind's byte. -/
def queuedCode : Option RecKind → Nat
  | none => 0
  | some k => k.code

/-- R189: an inflight note's byte. -/
def Note.code : Note → Nat
  | .clean => 1
  | .superseded => 2
  | .owned => 3

/-- R189: an inflight value. -/
def inflightField : Option Inflight → List Byte
  | some i => presence (some (be2 i.serial.toNat ++ be1 i.note.code))
  | none => presence none

/-- R202: the walk flag's field: present in LIVE, and in RETIRING while it stays set. -/
def Entry.walkField (e : Entry) : List Byte :=
  match e.body with
  | .live _ m _ => presence (some (beFlag m.walk))
  | .retiring _ m _ => presence (if m.walk then some (beFlag true) else none)
  | .tentative => presence none

/-- R1, R189: the fields of an entry from family to idle tag. -/
def Entry.identityBytes (e : Entry) : List Byte :=
  presence (some (be1 e.family.code)) ++ presence (some (be1 (e.proto.code e.family))) ++
    presence (some (tupleBytes e.family e.outside)) ++
    presence (e.declared?.map (fun d => tupleBytes e.family d.inside)) ++
    presence (some (be1 e.initiator.code)) ++ presence (some (be1 e.agingClass.val)) ++ presence (some (be1 e.idleTag))

/-- R1, R189: the fields of an entry from declared by to blob. -/
def Entry.declaredBytes (e : Entry) : List Byte :=
  presence (e.declared?.map (fun d => be1 (Fw.code d.declaredBy))) ++ presence (e.declared?.map (fun d => be1 d.fwState)) ++
    presence (e.declared?.map (fun d => be2 d.policy.toNat)) ++
    presence (e.declared?.map (fun d => be2 d.blob.length ++ d.blob))

/-- R189: a blocks list. -/
def blocksBytes (bs : List Nat) : List Byte := be1 bs.length ++ (bs.map be2).flatten

/-- R1: the blocks list, present in RETIRING. -/
def Entry.blocksField (e : Entry) : List Byte :=
  match e.body with
  | .retiring _ _ bs => presence (some (blocksBytes bs))
  | .live _ _ _ => presence none
  | .tentative => presence none

/-- R1, R189: the fields of an entry from peer state to marked. -/
def Entry.mirrorBytes (e : Entry) : List Byte :=
  presence (e.mirror?.map (fun m => be1 m.peer.code)) ++ presence (e.mirror?.map (fun m => be1 (laneCode m.lane))) ++
    presence (e.mirror?.map (fun m => be1 (queuedCode m.queued))) ++ e.walkField ++
    inflightField (e.mirror?.bind (·.inflight)) ++ presence (e.live?.map (fun l => be1 l.waits)) ++ e.blocksField ++
    presence (e.live?.map (fun l => beFlag l.unprotected)) ++ presence (e.live?.map (fun l => beFlag l.marked))

/-- R202: the Park Buffer's part: chain length, chain age and whether the entry is in the Release Queue. -/
def State.chainBytes (s : State) (h : Nat) (e : Entry) : List Byte :=
  presence (e.live?.map (fun l =>
    be1 l.chain.length ++ be1 l.chainAge ++ beFlag (s.park.releaseQueue.contains h)))

/-- R202: the results that carry the entry at a handle, and the free values taken so far. -/
def State.entryResults (s : State) (h : Nat) : List Byte × Nat :=
  match s.entry? h with
  | none => (be2 h ++ be1 Phase.free.code, s.freeReads)
  | some e =>
    let t := trackingField s.freeReads e.tcp
    let m := mirroredField t.2 (e.mirror?.bind (·.edges))
    (be2 h ++ be1 e.phase.code ++ e.identityBytes ++ e.declaredBytes ++ t.1 ++ m.1 ++ e.mirrorBytes ++ s.chainBytes h e, m.2)

/-- R202: the answer that carries the entry at a handle, after the bytes given. -/
def State.entryAnswer (s : State) (head : List Byte) (h : Nat) : Answer :=
  { status := .ok, results := head ++ (s.entryResults h).1, state := { s with freeReads := (s.entryResults h).2 } }

/-- R202: GET_ENTRY. -/
def State.getEntryOf (s : State) (args : List Byte) : Answer :=
  if (word16At args 0).toNat < Config.handles then s.entryAnswer [] (word16At args 0).toNat else s.refuse .badArg

/-- R202: the holder FIND_ENTRY takes: TENTATIVE or LIVE first, else the RETIRING holder of lowest handle. -/
def State.findHolder (s : State) (k : Key) : Option Nat :=
  match s.lookup k with
  | some h => some h
  | none => s.holderIn k .retiring

/-- R202: the side an argument names. -/
def sideOf (b : Byte) : Option Side := if b = 0#8 then some .inside else if b = 1#8 then some .outside else none

/-- R202: the key of FIND_ENTRY's arguments; none where they are refused BAD_ARG. -/
def findKey (args : List Byte) : Option Key :=
  match sideOf (byteAt args 0), familyOf (byteAt args 1) with
  | some side, some fam =>
    match protoOf fam (byteAt args 2) with
    | none => none
    | some pr =>
      if args.length < 3 + fam.tupleBytes then none
      else
        let t := readTuple fam (args.drop 3)
        if echoPortsOk pr t then some (tupleKey fam pr side t) else none
  | _, _ => none

/-- R202: FIND_ENTRY. -/
def State.findEntryOf (s : State) (args : List Byte) : Answer :=
  match findKey args with
  | none => s.refuse .badArg
  | some k =>
    match s.findHolder k with
    | some h => s.entryAnswer (beFlag true) h
    | none => { status := .ok, results := beFlag false, state := s }

/-! ## LIST (R203) -/

/-- R203: a LIST's filter. -/
structure Filter where
  phases : Nat
  marked : Nat
  peers : Nat
  unprotected : Nat
deriving DecidableEq, Repr

/-- R203: the filter in the arguments. -/
def readFilter (args : List Byte) : Filter :=
  { phases := (byteAt args 2).toNat
    marked := (byteAt args 3).toNat
    peers := (byteAt args 4).toNat
    unprotected := (byteAt args 5).toNat }

/-- R203: the filter's values are ones the rule allows. -/
def Filter.ok (f : Filter) : Bool :=
  decide (f.phases ≤ 15) && decide (f.marked ≤ 2) && decide (f.peers ≤ 7) && decide (f.unprotected ≤ 2)

/-- R203: a three-way filter on a flag that only some entries hold. -/
def passesFlag (want : Nat) (held : Option Bool) : Bool :=
  match want with
  | 0 => true
  | 1 => held == some true
  | _ => held == some false

/-- R203: a peer mask passes the entry. -/
def passesPeer (mask : Nat) (peer : Option Peer) : Bool :=
  if mask = 0 then true
  else match peer with
    | some p => mask.testBit p.code
    | none => false

/-- R203: the entry at a handle passes all four filters. -/
def State.passes (s : State) (f : Filter) (h : Nat) : Bool :=
  let e := s.entry? h
  let live := e.bind Entry.live?
  (f.phases == 0 || f.phases.testBit (s.phase h).code) && passesFlag f.marked (live.map (·.marked)) &&
    passesPeer f.peers ((e.bind Entry.mirror?).map (·.peer)) && passesFlag f.unprotected (live.map (·.unprotected))

/-- R203: the scan from a handle, `n` handles below the last and `room` handles still to list; the handles listed and the
next cursor. -/
def State.scan (s : State) (f : Filter) : Nat → Nat → Nat → List Nat × Nat
  | 0, _, _ => ([], 65535)
  | n + 1, h, room =>
    if s.passes f h then
      if room ≤ 1 then ([h], if n = 0 then 65535 else h + 1)
      else (h :: (s.scan f n (h + 1) (room - 1)).1, (s.scan f n (h + 1) (room - 1)).2)
    else s.scan f n (h + 1) room

/-- R203: the results of a scan: the count, the handles and the next cursor. -/
def listResults (r : List Nat × Nat) : List Byte := be1 r.1.length ++ (r.1.map be2).flatten ++ be2 r.2

/-- R203: LIST. -/
def State.listOf (s : State) (args : List Byte) : Answer :=
  let cursor := (word16At args 0).toNat
  if cursor < Config.handles ∧ (readFilter args).ok = true then
    { status := .ok
      results := listResults (s.scan (readFilter args) (Config.handles - cursor) cursor Config.listHandles)
      state := s }
  else s.refuse .badArg

end Sys2Proof.Machine
end

