-- ==== Sys2Proof/Machine/FrameCommands.lean ====
section
/-! DEFINITION. The commands that bring a frame to a port: RX_ERROR, DATA_FRAME and the CCF kinds the part takes. What a
received frame is stands in its bytes, so each meaning takes the frame through the one reception of R68, R71, R72 and
R185 (log entry 2). -/

namespace Sys2Proof.Machine

/-! ## Reception (R68, R71, R72, R185) -/

/-- R102, R187: a SYNC-ACK from the mirror target, as one event: as many statuses as its record count. -/
def State.syncAckFrom (s : State) (c : Ccf) : State :=
  s.asEvent (fun t => (t.syncAck c.seq (c.payload.take c.records)).finish)

/-- R47, R125: the firewall whose IN port a CCF arrived at does what `act` says. -/
def State.bySender (s : State) (p : Port) (act : Fw → State) : State :=
  match p.inOf? with
  | some f => act f
  | none => s

/-- R185: a CCF that has passed every check goes to its owner. The kinds R186 takes at no port never come here. -/
def State.toOwner (s : State) (p : Port) (k : CcfKind) (c : Ccf) : State :=
  match k with
  | .pulse => s.bySender p (fun f => s.pulseFrom f c)
  | .declare => s.bySender p (fun f => s.declareFrom f c)
  | .flushed => s.bySender p (fun f => s.flushedFrom f c)
  | .syncAck => s.syncAckFrom c
  | .query => s.queueRequest (requestOf p c)
  | .role => s
  | .drain => s
  | .sync => s
  | .notice => s
  | .reply => s

/-- R72, R185: an untagged CCF at the port gate and at the checks that follow it. -/
def State.takeCcf (s : State) (p : Port) (c : Ccf) : State :=
  if !s.gateTakes p then s.inc .ccfPortDrop
  else match s.ccfCheck p c with
    | some k => s.toOwner p k c
    | none => s.inc .ccfMalformed

/-- R71: a CCF; under a tag it is malformed. -/
def State.ccfFrameIn (s : State) (p : Port) (f : Frame) : State :=
  if isUntagged f then s.takeCcf p (readCcf f) else s.inc .ccfMalformed

/-- R68, R71: a frame arrives at a port. -/
def State.receive (s : State) (p : Port) (f : Frame) : State :=
  if frameOk f then
    let s1 := s.inc (.framesIn p)
    if isCcf f then s1.ccfFrameIn p f else s1.dataFrame p f
  else s.inc .rxError

/-! ## Meanings -/

/-- RX_ERROR (R68). -/
def execRxError (p : Port) (f : Frame) (s : State) : Host.Outcome State Fault Refusal := .next (s.receive p f)

/-- DATA_FRAME (R83). -/
def execDataFrame (p : Port) (f : Frame) (s : State) : Host.Outcome State Fault Refusal := .next (s.receive p f)

/-- PULSE (R125). -/
def execPulse (p : Port) (f : Frame) (s : State) : Host.Outcome State Fault Refusal := .next (s.receive p f)

/-- DECLARE (R47). -/
def execDeclare (p : Port) (f : Frame) (s : State) : Host.Outcome State Fault Refusal := .next (s.receive p f)

/-- FLUSHED (R65). -/
def execFlushed (p : Port) (f : Frame) (s : State) : Host.Outcome State Fault Refusal := .next (s.receive p f)

/-- SYNC_ACK (R102). -/
def execSyncAck (p : Port) (f : Frame) (s : State) : Host.Outcome State Fault Refusal := .next (s.receive p f)

/-- QUERY (R194). -/
def execQuery (p : Port) (f : Frame) (s : State) : Host.Outcome State Fault Refusal := .next (s.receive p f)

/-- REFUSED_CCF (R185). -/
def execRefusedCcf (p : Port) (f : Frame) (s : State) : Host.Outcome State Fault Refusal := .next (s.receive p f)

end Sys2Proof.Machine
end

