-- ==== Sys2Proof/Machine/RequestCommands.lean ====
section
/-! DEFINITION. The commands that serve the request at the head of the Request Queue (R195, R196), one per request code.
A command whose code is not the head request's, or whose head request is not served yet, leaves the state (log entry 8). -/

namespace Sys2Proof.Machine

/-- GET_PARAM (R199). -/
def execGetParam (s : State) : Host.Outcome State Fault Refusal :=
  .next (s.serve (· == 1#8) (fun t q => t.judgeRead q 1 State.getParamOf))

/-- SET_PARAM (R199, R200). -/
def execSetParam (s : State) : Host.Outcome State Fault Refusal :=
  .next (s.serve (· == 2#8) (fun t q => t.judgeWrite q 1 State.setParamOf))

/-- GET_STATUS (R201). -/
def execGetStatus (s : State) : Host.Outcome State Fault Refusal :=
  .next (s.serve (· == 3#8) (fun t q => t.judgeRead q 0 (fun u _ => u.statusOf)))

/-- GET_ENTRY (R202). -/
def execGetEntry (s : State) : Host.Outcome State Fault Refusal :=
  .next (s.serve (· == 4#8) (fun t q => t.judgeRead q 2 State.getEntryOf))

/-- FIND_ENTRY (R202). -/
def execFindEntry (s : State) : Host.Outcome State Fault Refusal :=
  .next (s.serve (· == 5#8) (fun t q => t.judgeRead q 3 State.findEntryOf))

/-- LIST (R203). -/
def execList (s : State) : Host.Outcome State Fault Refusal :=
  .next (s.serve (· == 6#8) (fun t q => t.judgeRead q 6 State.listOf))

/-- GET_COUNTERS (R204). -/
def execGetCounters (s : State) : Host.Outcome State Fault Refusal :=
  .next (s.serve (· == 7#8) (State.judgeCounters))

/-- GET_EVENTS (R204). -/
def execGetEvents (s : State) : Host.Outcome State Fault Refusal :=
  .next (s.serve (· == 8#8) (fun t q => t.judgeRead q 0 (fun u _ => u.eventsOf)))

/-- CLEAR_EVENTS (R213). -/
def execClearEvents (s : State) : Host.Outcome State Fault Refusal :=
  .next (s.serve (· == 9#8) (fun t q => t.judgeWrite q 2 State.clearEventsOf))

/-- SET_PREFIX (R205). -/
def execSetPrefix (s : State) : Host.Outcome State Fault Refusal :=
  .next (s.serve (· == 10#8) (fun t q => t.judgeWrite q 5 State.setPrefixOf))

/-- GET_PREFIX (R205). -/
def execGetPrefix (s : State) : Host.Outcome State Fault Refusal :=
  .next (s.serve (· == 11#8) (fun t q => t.judgeRead q 1 State.getPrefixOf))

/-- SWITCHOVER (R146, R206). -/
def execSwitchover (s : State) : Host.Outcome State Fault Refusal :=
  .next (s.serve (· == 16#8) (fun t q => t.judgeWrite q 1 State.switchoverOf))

/-- RESYNC (R206). -/
def execResync (s : State) : Host.Outcome State Fault Refusal :=
  .next (s.serve (· == 17#8) (fun t q => t.judgeWrite q 0 (fun u _ => u.resyncOf)))

/-- PURGE (R207). -/
def execPurge (s : State) : Host.Outcome State Fault Refusal :=
  .next (s.serve (· == 18#8) (fun t q => t.judgeWrite q 2 State.purgeOf))

/-- TABLE_RESET (R208). -/
def execTableReset (s : State) : Host.Outcome State Fault Refusal :=
  .next (s.serve (· == 19#8) (fun t q => t.judgeWrite q 0 (fun u _ => u.tableResetOf)))

/-- UNKNOWN_REQUEST (R196): a code that is not one of the fifteen is answered UNKNOWN, whoever sent it. -/
def execUnknownRequest (s : State) : Host.Outcome State Fault Refusal :=
  .next (s.serve (fun b => !knownCode b) (fun t _ => t.refuse .unknown))

end Sys2Proof.Machine
end

