-- ==== Sys2Proof/Machine/TimerCommands.lean ====
section
/-! DEFINITION. The expiries: the pulse timers (R128), the sweepers (R24, R25, R101, R175), the restart hold (R110) and the
six timers of the Role Controller (R139). A timer that is not running does not expire, and the state stays (log entry 8). -/

namespace Sys2Proof.Machine

/-! ## Class and tentative sweepers (R23 to R25, R27) -/

/-- R23: an entry's idle tag one higher. -/
def State.raiseTag (s : State) (h : Nat) : State := s.modifyEntry h (fun e => { e with idleTag := e.idleTag + 1 })

/-- R24: an entry examined by the sweeper of a class. -/
def State.ageLive (c : Fin 4) (s : State) (h : Nat) : State :=
  match s.entry? h with
  | none => s
  | some e =>
    if e.isLive && e.agingClass == c && !e.marked && e.chain.isEmpty then
      if e.idleTag < 2 then s.raiseTag h else (s.retire h).inc .aged
    else s

/-- R24, R27: an expiry of a class sweeper. -/
def State.classSweep (s : State) (c : Fin 4) : State :=
  let s1 := { s with sweepers := { s.sweepers with classes := s.sweepers.classes.set c (s.param (.agingSweep c)) } }
  s1.handles.foldl (State.ageLive c) s1

/-- R25: an entry examined by the tentative sweeper. -/
def State.ageTentative (s : State) (h : Nat) : State :=
  match s.entry? h with
  | none => s
  | some e =>
    if e.phase = .tentative then
      if e.idleTag < 2 then s.raiseTag h else (s.freeEntry h).inc .tentativeExpired
    else s

/-- R25, R27: an expiry of the tentative sweeper. -/
def State.tentativeSweep (s : State) : State :=
  let s1 := { s with sweepers := { s.sweepers with tentative := s.param .tentativeSweep } }
  s1.handles.foldl State.ageTentative s1

/-! ## Timers of the Mirror Engine and the Role Controller (R110, R139) -/

/-- R110: the restart hold expires. -/
def State.restartExpiry (s : State) : State :=
  match s.mirror.restartHold with
  | .running _ => { s with mirror := { s.mirror with restartHold := .expired } }
  | .stopped => s
  | .expired => s

/-- R139, R142: the startup wait expires, and the start-up test is made. -/
def State.startupExpiry (s : State) : State :=
  match s.role.startup with
  | .running _ => s.asEvent (fun t => { t with role := { t.role with startup := .over } }.startupTest)
  | .over => s

/-- R139, R148: the hold-down expires, and a preemption test is made. -/
def State.holdDownEnds (s : State) : State :=
  if s.role.holdDown.isRunning then
    s.asEvent (fun t => { t with role := { t.role with holdDown := .stopped } }.preemptTest)
  else s

/-- R139, R147: the fitness dwell becomes complete, and a preemption test is made. -/
def State.dwellEnds (s : State) : State :=
  match s.role.dwell with
  | .running _ => s.asEvent (fun t => { t with role := { t.role with dwell := .complete } }.preemptTest)
  | .stopped => s
  | .complete => s

/-- R139, R152: the quiesce timer expires, and a cutover in QUIESCE moves to TRANSFER. -/
def State.quiesceEnds (s : State) : State :=
  if s.role.quiesce.isRunning then
    s.asEvent (fun t =>
      let t1 := { t with role := { t.role with quiesce := .stopped } }
      if t.role.phase = .quiesce then t1.makeTransfer else t1)
  else s

/-- R139, R157: the late window expires. -/
def State.lateEnds (s : State) : State :=
  if s.role.lateWindow.isRunning then { s with role := { s.role with lateWindow := .stopped } } else s

/-- R139, R159: the cutover limit expires: every mark is cleared, and TRANSFER becomes SETTLE. -/
def State.limitEnds (s : State) : State :=
  if s.role.cutLimit.isRunning then
    s.asEvent (fun t => { t with role := { t.role with cutLimit := .stopped } }.releaseAll.finish)
  else s

/-! ## Meanings -/

/-- PULSE_TIMER_EXPIRY (R128). -/
def execPulseTimerExpiry (fw : Fw) (s : State) : Host.Outcome State Fault Refusal := .next (s.pulseExpiry fw)

/-- CLASS_SWEEP_EXPIRY (R24), with the tests that end its event. -/
def execClassSweepExpiry (cls : Fin 4) (s : State) : Host.Outcome State Fault Refusal :=
  .next (s.asEvent (fun t => (t.classSweep cls).finish))

/-- TENTATIVE_SWEEP_EXPIRY (R25). -/
def execTentativeSweepExpiry (s : State) : Host.Outcome State Fault Refusal := .next s.tentativeSweep

/-- CONFIRM_SWEEP_EXPIRY (R101), with the tests that end its event. -/
def execConfirmSweepExpiry (s : State) : Host.Outcome State Fault Refusal :=
  .next (s.asEvent (fun t => t.confirmSweep.finish))

/-- PARK_SWEEP_EXPIRY (R175), with the tests that end its event. -/
def execParkSweepExpiry (s : State) : Host.Outcome State Fault Refusal :=
  .next (s.asEvent (fun t => t.parkSweep.finish))

/-- RESTART_HOLD_EXPIRY (R110). -/
def execRestartHoldExpiry (s : State) : Host.Outcome State Fault Refusal := .next s.restartExpiry

/-- STARTUP_WAIT_EXPIRY (R142). -/
def execStartupWaitExpiry (s : State) : Host.Outcome State Fault Refusal := .next s.startupExpiry

/-- HOLD_DOWN_EXPIRY (R139). -/
def execHoldDownExpiry (s : State) : Host.Outcome State Fault Refusal := .next s.holdDownEnds

/-- FITNESS_DWELL_EXPIRY (R147). -/
def execFitnessDwellExpiry (s : State) : Host.Outcome State Fault Refusal := .next s.dwellEnds

/-- QUIESCE_TIMER_EXPIRY (R152). -/
def execQuiesceTimerExpiry (s : State) : Host.Outcome State Fault Refusal := .next s.quiesceEnds

/-- LATE_WINDOW_EXPIRY (R157). -/
def execLateWindowExpiry (s : State) : Host.Outcome State Fault Refusal := .next s.lateEnds

/-- CUTOVER_LIMIT_EXPIRY (R159). -/
def execCutoverLimitExpiry (s : State) : Host.Outcome State Fault Refusal := .next s.limitEnds

end Sys2Proof.Machine
end

