-- ==== Sys2Proof/Machine/Dispatch.lean ====
section
/-! DEFINITION. The dispatch: one arm per command, each one direct call of its meaning. -/

namespace Sys2Proof.Machine

/-- A command's effect on everything but the queue of waiting commands. -/
def exec (i : Instr) (s : State) : Host.Outcome State Fault Refusal :=
  match i with
  | .reset => Sys2Proof.Machine.execReset s
  | .rxError p f => Sys2Proof.Machine.execRxError p f s
  | .dataFrame p f => Sys2Proof.Machine.execDataFrame p f s
  | .pulse p f => Sys2Proof.Machine.execPulse p f s
  | .declare p f => Sys2Proof.Machine.execDeclare p f s
  | .flushed p f => Sys2Proof.Machine.execFlushed p f s
  | .syncAck p f => Sys2Proof.Machine.execSyncAck p f s
  | .query p f => Sys2Proof.Machine.execQuery p f s
  | .linkUp p => Sys2Proof.Machine.execLinkUp p s
  | .linkDown p => Sys2Proof.Machine.execLinkDown p s
  | .transmitFrame p => Sys2Proof.Machine.execTransmitFrame p s
  | .releaseTurn => Sys2Proof.Machine.execReleaseTurn s
  | .packBatch => Sys2Proof.Machine.execPackBatch s
  | .walkCursorStep => Sys2Proof.Machine.execWalkCursorStep s
  | .pulseTimerExpiry fw => Sys2Proof.Machine.execPulseTimerExpiry fw s
  | .classSweepExpiry cls => Sys2Proof.Machine.execClassSweepExpiry cls s
  | .tentativeSweepExpiry => Sys2Proof.Machine.execTentativeSweepExpiry s
  | .confirmSweepExpiry => Sys2Proof.Machine.execConfirmSweepExpiry s
  | .parkSweepExpiry => Sys2Proof.Machine.execParkSweepExpiry s
  | .restartHoldExpiry => Sys2Proof.Machine.execRestartHoldExpiry s
  | .startupWaitExpiry => Sys2Proof.Machine.execStartupWaitExpiry s
  | .holdDownExpiry => Sys2Proof.Machine.execHoldDownExpiry s
  | .fitnessDwellExpiry => Sys2Proof.Machine.execFitnessDwellExpiry s
  | .quiesceTimerExpiry => Sys2Proof.Machine.execQuiesceTimerExpiry s
  | .lateWindowExpiry => Sys2Proof.Machine.execLateWindowExpiry s
  | .cutoverLimitExpiry => Sys2Proof.Machine.execCutoverLimitExpiry s
  | .getParam => Sys2Proof.Machine.execGetParam s
  | .setParam => Sys2Proof.Machine.execSetParam s
  | .getStatus => Sys2Proof.Machine.execGetStatus s
  | .getEntry => Sys2Proof.Machine.execGetEntry s
  | .findEntry => Sys2Proof.Machine.execFindEntry s
  | .list => Sys2Proof.Machine.execList s
  | .getCounters => Sys2Proof.Machine.execGetCounters s
  | .getEvents => Sys2Proof.Machine.execGetEvents s
  | .clearEvents => Sys2Proof.Machine.execClearEvents s
  | .setPrefix => Sys2Proof.Machine.execSetPrefix s
  | .getPrefix => Sys2Proof.Machine.execGetPrefix s
  | .switchover => Sys2Proof.Machine.execSwitchover s
  | .resync => Sys2Proof.Machine.execResync s
  | .purge => Sys2Proof.Machine.execPurge s
  | .tableReset => Sys2Proof.Machine.execTableReset s
  | .unknownRequest => Sys2Proof.Machine.execUnknownRequest s
  | .refusedCcf p f => Sys2Proof.Machine.execRefusedCcf p f s

end Sys2Proof.Machine
end

