-- ==== Sys2Proof/Safety.lean ====
section
/-! DEFINITION. What the statements are made in: the invariants of the block, the frames a step keeps to, and the REPLY a
served request is answered with. -/

namespace Sys2Proof.Machine

/-! ## Invariants -/

/-- R70: a transmit queue holds up to 64 frames, and none while its port's link is DOWN. -/
def PortState.ok (x : PortState) : Bool :=
  decide (x.tx.length ≤ Config.txDepth) && (x.link == .up || x.tx.isEmpty)

/-- R70: every transmit queue is within its bound. -/
abbrev State.queuesOk (s : State) : Prop := ∀ p, (s.port p).ok = true

/-- R198, R199: a value is one that a parameter of the kind can hold. -/
def ParamKind.holds (k : ParamKind) (v : Nat) : Bool :=
  match k with
  | .address => decide (v < 2 ^ 48) && !isGroup (BitVec.ofNat 48 v)
  | .enumerated lo hi => decide (lo ≤ v) && decide (v ≤ hi)
  | .numeric lo hi => decide (lo ≤ v) && decide (v ≤ hi)
  | .mask bits => v &&& bits == v
  | .seed => decide (v ≤ 65535)

/-- R198: every parameter holds a value in its range. -/
abbrev State.paramsOk (s : State) : Prop := ∀ i : Fin 37, (paramKind i).holds s.params[i] = true

/-- The TENTATIVE entries of a table. -/
def tentatives (es : SMap Entry) : Nat := (es.filter (fun x => x.2.phase == .tentative)).length

/-- R1, R4, R5: the table is in canonical form, its handles are handles, and the two counts count what they say. -/
abbrev State.tableOk (s : State) : Prop :=
  SMap.wf s.table.entries = true ∧ SMap.wf s.table.slots = true ∧ (∀ x ∈ s.table.entries, x.1 < Config.handles) ∧
    s.table.occupancy = s.table.entries.length ∧ s.table.tentative = tentatives s.table.entries

/-! ## Frames -/

/-- From `s` to `t` every link is as it was, and every transmit queue has at most gained frames at its tail. -/
def State.onlySends (s t : State) : Prop :=
  ∀ p, (t.port p).link = (s.port p).link ∧ ∃ fs, (t.port p).tx = (s.port p).tx ++ fs

/-- From `s` to `t` one counter has advanced by `n`, and the others are as they were. -/
def State.countsOnly (s t : State) (c : Counter) (n : Nat) : Prop :=
  t.count c = min (s.count c + n) Config.counterMax ∧ ∀ d, d ≠ c → t.count d = s.count d

/-- From `s` to `t` every entry but the one at `h` is as it was. -/
def State.othersKept (s t : State) (h : Nat) : Prop := ∀ g, g ≠ h → t.entry? g = s.entry? g

/-- The entry as LIVE with the parts given, every other field as it was. -/
def Entry.withLive (e : Entry) (d : Declared) (m : MirrorPart) (l : LivePart) : Entry := { e with body := .live d m l }

/-! ## Served requests (R193, R195) -/

/-- R195: a request of the code stands at the head of the queue, its port's link UP and its transmit queue with room. -/
def State.heads (s : State) (q : Request) (rest : List Request) (code : Byte) : Prop :=
  s.requests = q :: rest ∧ q.code = code ∧ (s.port q.port).link = .up ∧ (s.port q.port).tx.length < Config.txDepth

/-- R184, R193, R195: the REPLY to a request. -/
def State.replyFrame (s : State) (q : Request) (st : Status) (results : List Byte) : Frame :=
  ccfFrame (if isGroup q.source then Config.broadcast else q.source) s.unitAddress .reply 0#8 0#8 q.id
    ([q.code] ++ be1 st.code ++ results)

/-- A frame at the tail of a port's transmit queue. -/
def State.queued (s : State) (p : Port) (f : Frame) : State :=
  s.setPort p { s.port p with tx := (s.port p).tx ++ [f] }

/-- R195: the head request is taken off and its REPLY joins the tail of its port's transmit queue. -/
def State.answered (s : State) (q : Request) (rest : List Request) (st : Status) (results : List Byte) : State :=
  { s with requests := rest }.queued q.port (s.replyFrame q st results)

/-- R193, R195: the REPLY to a request is the last frame in its port's transmit queue, unless that queue is full. -/
def State.repliesLast (t : State) (q : Request) (st : Status) (results : List Byte) : Prop :=
  (t.port q.port).tx.length < Config.txDepth → (t.port q.port).tx.getLast? = some (t.replyFrame q st results)

/-- R189: the bytes show the edges in order, each its valid byte and 4 bytes, which are the edge's value where it is valid and
may be any where it is not (log entry 7). -/
def edgesShown : List (Option Seq32) → List Byte → Prop
  | [], bs => bs = []
  | e :: es, bs => ∃ val rest, bs = beFlag e.isSome ++ val ++ rest ∧ val.length = 4 ∧
      (∀ v, e = some v → val = beBytes 4 v.toNat) ∧ edgesShown es rest

/-! ## Frames that arrive -/

/-- R68, R71: the port takes the frame and it is a data frame. -/
def isDataFrame (f : Frame) : Bool := frameOk f && !isCcf f

/-- R68, R71, R183, R185, R187: the frame passes every check on a CCF of the kind, but for the two on its port. -/
def goodCcf (k : CcfKind) (f : Frame) : Bool :=
  isCcfOf k f && (readCcf f).version == 1#8 && decide ((readCcf f).length ≤ (readCcf f).rest.length) && bodyOk k (readCcf f)

/-- R81, R82: the port is LAN, WAN, the active firewall's, or the old active firewall's while the late window runs. -/
def State.mayEmit (s : State) (p : Port) : Prop :=
  ∀ f, p.fw? = some f → f = s.role.active ∨ (s.role.lateWindow.isRunning = true ∧ s.role.source = some f)

/-- R79: the port that a frame of class TRACK or PASS from the port is steered to. -/
def State.steersTo (s : State) (p q : Port) : Prop :=
  (p = .lan ∧ q = s.role.active.inPort) ∨ (p = .wan ∧ q = s.role.active.outPort) ∨
    ((p = .aIn ∨ p = .bIn) ∧ q = .lan) ∨ ((p = .aOut ∨ p = .bOut) ∧ q = .wan)

/-- R70: the port's link is UP and its transmit queue has room for `n` more frames. -/
def State.hasRoom (s : State) (p : Port) (n : Nat) : Prop :=
  (s.port p).link = .up ∧ (s.port p).tx.length + n ≤ Config.txDepth

/-! ## A move of the active role -/

/-- R50, R140, R142, R153, R161: from `s` to `t` the active role has moved to `dest`, the epoch has counted it, and the
baseline of `dest` is clear while the other firewall's sequence record stays. -/
def State.movedTo (s t : State) (dest : Fw) : Prop :=
  t.role.active = dest ∧ t.role.epoch = s.role.epoch + 1 ∧ t.decl.get dest = none ∧
    t.decl.get dest.other = s.decl.get dest.other

/-- R153: the active role has moved by a TRANSFER event, which ends the startup wait, clears the dark flag, starts the
hold-down and leaves no TENTATIVE entry. -/
def State.transferredTo (s t : State) (dest : Fw) : Prop :=
  s.movedTo t dest ∧ t.role.startup = .over ∧ t.role.dark = false ∧ t.role.holdDown = Timer.start (s.param .holdDown) ∧
    (s.tableOk → ∀ h, t.phase h ≠ .tentative)

/-- R154: in `t` the LIVE entries of `s` are marked as the marking rule says, and a marked one stands in the lane, with the
kind queued, that the rule gives it. An entry whose lane and queued kind disagree, which no run reaches, is not spoken of. -/
def State.markedAs (s t : State) : Prop :=
  ∀ h e d m l, s.entry? h = some e → e.body = .live d m l → (m.lane = none ↔ m.queued = none) →
    let due := l.unprotected = false ∧ (m.peer ≠ .current ∨ m.queued ≠ none ∨ m.inflight ≠ none ∨ e.anyDrift = true)
    (t.isMarked h = true ↔ due) ∧
    (due → m.queued ≠ none → t.laneOf h = some .urgent ∧ t.queuedOf h = m.queued) ∧
    (due → m.queued = none → m.inflight ≠ none → t.laneOf h = none ∧ t.queuedOf h = none) ∧
    (due → m.queued = none → m.inflight = none →
      t.laneOf h = some .urgent ∧ t.queuedOf h = some (if m.peer = .current then .refresh else .declare))

/-- R152, R153, R154: a cutover in QUIESCE has gone on to TRANSFER, with its quiesce timer stopped. Where nothing was marked
before, the marking rule has marked the LIVE entries, and the cutover record holds their number. -/
def State.endsQuiesce (s t : State) : Prop :=
  s.transferredTo t s.role.active.other ∧ t.role.phase ≠ .quiesce ∧ t.role.quiesce = .stopped ∧
    (s.role.kind = some .planned → s.count .cutoversPlanned < 4294967295 →
      s.count .cutoversPlanned < t.count .cutoversPlanned) ∧
    (s.tableOk → s.role.marked = 0 → (∀ h, s.isMarked h = false) → s.markedAs t ∧
      t.role.record.markedAtTransfer = min (s.table.entries.filter (fun x => x.2.toBeMarked)).length 65535)

/-! ## Records put back (R107) -/

/-- The records are of distinct entries, none of them marked, that the Mirror Engine holds fields of. -/
def State.canPutBack (s : State) (recs : List BatchRecord) : Prop :=
  (recs.map (·.handle)).Nodup ∧
    ∀ r ∈ recs, s.isMarked r.handle = false ∧ ((s.entry? r.handle).bind Entry.mirror?).isSome = true

/-- R107: from `s` to `t` records of unmarked entries have been put back: they stand at the head of NORMAL in their order, each
queued for the record's kind (REFRESH for a DECLARE whose entry is CURRENT) merged with what was queued, nothing inflight, and
every other entry is as it was. -/
def State.putsBack (s t : State) (recs : List BatchRecord) : Prop :=
  let hs := recs.map (·.handle)
  t.mirror.normal = hs ++ s.mirror.normal.filter (fun h => !hs.contains h) ∧
    t.mirror.urgent = s.mirror.urgent.filter (fun h => !hs.contains h) ∧
    (∀ h, h ∉ hs → t.entry? h = s.entry? h) ∧
    ∀ r ∈ recs, ∀ m, (s.entry? r.handle).bind Entry.mirror? = some m →
      (t.entry? r.handle).bind Entry.mirror? = some { m with
        inflight := none, lane := some .normal
        queued := some ((if r.kind = .declare ∧ m.peer = .current then RecKind.refresh else r.kind).merge m.queued) }

/-! ## Moments at which nothing more ends an event -/

/-- No test of R116 or R160 can be met as an event ends: the mirror is not WALKING and the cutover phase is not SETTLE. -/
def State.quiet (s : State) : Prop := s.mirror.state ≠ .walking ∧ s.role.phase ≠ .settle

/-- The tests of R116 and R160 fail as an event ends that moves neither the walk cursor nor the batch slots: a walk has handles
left to examine, and in SETTLE a batch is outstanding. -/
def State.unended (s : State) : Prop :=
  (s.mirror.state = .walking → s.mirror.cursor < Config.handles) ∧ (s.role.phase = .settle → s.mirror.slots ≠ [])

end Sys2Proof.Machine
end

