-- ==== Sys2Proof/Certificates/Slice0/Obligations.lean ====
section
/-! DEFINITION. The statements for the provers, in the order of the chapters of spec/. A docstring names the rules of
spec/ a statement rests on, and the log entry where a clause is the model's own choice. -/

open Sys2Proof Sys2Proof.Machine

/-! ## The machine -/

/-- The block takes the command at the front of its queue and runs it with the queue's rest; on an empty queue it idles. The
queue of commands and the idling are the model's choice (log entries 8 and 9). -/
def Obligations.StepRunsTheFrontCommand : Prop :=
  (∀ (c : Instr) (rest : List Instr) (s : State), s.pending = c :: rest → step s = exec c { s with pending := rest }) ∧
    ∀ s : State, s.pending = [] → step s = .next s

/-- Every command is answered with a next state, in every state, and none touches the queue of waiting commands. This is the
model's choice: 95_what_each_step_holds.md calls each row a step of the part, whole and indivisible, and no rule gives a step that
stops, so a command whose conditions do not hold leaves the state (log entry 8); the queue of commands is the model's own (log entry
9), and RESET leaves it (log entry 6). -/
def Obligations.EveryCommandRunsAndKeepsTheQueue : Prop :=
  ∀ (c : Instr) (s : State), ∃ t, exec c s = .next t ∧ t.pending = s.pending

/-- RESET (R28, R67, R78, R86, R87, R123, R138, R166, R198, R210, R215): every field written out. The queue of commands
and the count of free values taken, which are the model's own, stay (log entry 6). -/
def Obligations.ResetGivesEveryResetValue : Prop :=
  ∀ s : State, exec .reset s = .next
    { pending := s.pending
      ports :=
        { lan := { link := .down, tx := [] }, wan := { link := .down, tx := [] }, aIn := { link := .down, tx := [] },
          aOut := { link := .down, tx := [] }, bIn := { link := .down, tx := [] }, bOut := { link := .down, tx := [] } }
      prefixes := Vector.replicate 32 { valid := false, family := .v4, addr := 0#128, length := 0, cls := .track }
      table := { entries := [], slots := [], occupancy := 0, tentative := 0,
                 levels := { l1 := false, l2 := false, l3 := false } }
      decl := { a := none, b := none }
      mirror :=
        { target := none, state := .idle, urgent := [], normal := [], slots := [], nextSerial := 0#16, timeouts := 0,
          cursor := 16384, walkPending := 0, walkQueued := 0, beginPending := false, restartHold := .stopped }
      health :=
        { a := { state := .absent, misses := 0, good := 0, fitness := 0, claimed := .none, lastSeq := 0#16,
                 learned := 0xFFFFFFFFFFFF#48, pulseTimer := .stopped }
          b := { state := .absent, misses := 0, good := 0, fitness := 0, claimed := .none, lastSeq := 0#16,
                 learned := 0xFFFFFFFFFFFF#48, pulseTimer := .stopped } }
      role :=
        { active := .a, phase := .none, kind := none, reason := none, source := none, dest := none, epoch := 0#16,
          dark := false, startup := .running 5, holdDown := .stopped, dwell := .stopped, quiesce := .stopped,
          lateWindow := .stopped, cutLimit := .stopped, marked := 0,
          record := { markedAtTransfer := 0, reMarked := 0, confirmed := 0, released := 0, parked := 0, dropped := 0 } }
      park := { cellsInUse := 0, framesHeld := 0, releaseQueue := [], levels := { l1 := false, l2 := false, l3 := false } }
      sweepers := { classes := #v[1200, 10, 30, 10], tentative := 10, confirm := 20, park := 50 }
      params := #v[0x024C4A000001, 1, 0, 0, 2, 5, 100, 3, 5, 30, 5, 500, 1000, 10, 8, 20, 3, 24, 1200, 10, 30, 10, 10, 2048,
        0, 50, 32, 50, 75, 90, 50, 75, 90, 65535, 3, 0, 2]
      requests := []
      events := Vector.replicate 16 { flag := false, count := 0 }
      counters := Vector.replicate 51 0
      freeReads := s.freeReads }

/-! ## Invariants -/

/-- R70: from every state whose transmit queues hold at most 64 frames, and none at a port whose link is DOWN, every step
leaves them so. -/
def Obligations.TransmitQueuesStayBounded : Prop :=
  ∀ s t : State, s.queuesOk → step s = .next t → t.queuesOk

/-- R198, R199, R200: from every state whose parameters are in their ranges, every step leaves them so. -/
def Obligations.ParametersStayInTheirRanges : Prop :=
  ∀ s t : State, s.paramsOk → step s = .next t → t.paramsOk

/-- R1, R4, R5, R8: every step keeps the table's canonical form (handles rising and below 16,384), and its two counts
count the entries that are not FREE and those that are TENTATIVE. -/
def Obligations.SessionTableStaysCanonical : Prop :=
  ∀ s t : State, s.tableOk → step s = .next t → t.tableOk

/-- R138, R153, R161: whatever the command, but for RESET, either the active firewall and the epoch both stay, or the
active role is at the other firewall and the epoch has advanced by one mod 65,536. -/
def Obligations.EpochCountsTheMovesOfTheActiveRole : Prop :=
  ∀ (c : Instr) (s t : State), c ≠ .reset → exec c s = .next t →
    (t.role.active = s.role.active ∧ t.role.epoch = s.role.epoch) ∨
      (t.role.active = s.role.active.other ∧ t.role.epoch = s.role.epoch + 1)

/-- The reset state meets three of the invariants above: those on the transmit queues, the parameters and the Session Table. (The
fourth is a relation of two states, before and after a command, and says nothing of one.) -/
def Obligations.ResetMeetsTheInvariants : Prop :=
  State.reset.queuesOk ∧ State.reset.paramsOk ∧ State.reset.tableOk

/-! ## Frames the part builds and reads -/

/-- R68, R71, R183, R184: a CCF the part builds is one a port takes, an untagged CCF, and every field of it reads back as
it was written. -/
def Obligations.BuiltCcfReadsBack : Prop :=
  ∀ (dst src : Mac) (k : CcfKind) (flags count : Byte) (seq : Word16) (payload : List Byte), payload.length ≤ 1496 →
    let f := ccfFrame dst src k flags count seq payload
    isCcfOf k f = true ∧ macAt f 0 = dst ∧ (readCcf f).source = src ∧ (readCcf f).version = 1#8 ∧
      kindOf (readCcf f).kind = some k ∧ (readCcf f).flags = flags ∧ (readCcf f).records = count.toNat ∧
      (readCcf f).seq = seq ∧ (readCcf f).length = payload.length ∧ (readCcf f).payload = payload

/-- R53, R188, R190, R191: the declaration record the part writes for an entry, read by the Declaration Receiver's rules,
is a PUT of that entry: every field comes back. The bytes read are those of the declaration layout; in the SYNC record of a TCP
entry the edge block stands between its tuples and its blob. -/
def Obligations.DeclarationRecordReadsBack : Prop :=
  ∀ (e : Entry) (d : Declared),
    d.fwState ≤ 15 → d.blob.length ≤ 64 → d.blob.length % 4 = 0 →
    (∀ x ∈ [d.inside.loc, d.inside.rem, e.outside.loc, e.outside.rem], e.family = .v4 → x.addr.toNat < 2 ^ 32) →
    (∀ x, e.tcp = some x → x.scaleOut ≤ 14 ∧ x.scaleIn ≤ 14) →
    (e.proto = .echo → d.inside.loc.port = d.inside.rem.port ∧ e.outside.loc.port = e.outside.rem.port) →
    readDecl (declPart e d ++ d.blob) = some
      { put := true, family := e.family, proto := e.proto, agingClass := e.agingClass, fwState := d.fwState,
        scales := e.tcp.bind (fun x => if x.scaleKnown then some (x.scaleOut, x.scaleIn) else none),
        initiator := e.initiator, policy := d.policy, inside := d.inside, outside := e.outside, blob := d.blob }

/-- R11, R12, R13: a canonical key does not depend on the order in which its two endpoints are given, so both directions
of a session have one key on a side; and an inside key is never an outside key. -/
def Obligations.CanonicalKeyIgnoresTheOrderOfEndpoints : Prop :=
  (∀ (fam : Family) (pr : Proto) (side : Side) (x y : Endpoint), keyOf fam pr side x y = keyOf fam pr side y x) ∧
    ∀ (fam fam' : Family) (pr pr' : Proto) (x y x' y' : Endpoint),
      keyOf fam pr .inside x y ≠ keyOf fam' pr' .outside x' y'

/-! ## Ports and CCFs that are dropped (chapter 4) -/

/-- R68, R71, R72, R185, R186, R187: a frame of bad length or bad check sequence is counted in RX_ERROR and reaches no
other block. A CCF under a tag, one at a port that takes none, and one that fails a check, are dropped: FRAMES_IN and the one
drop counter advance and nothing else changes. -/
def Obligations.FramesAreDroppedAtThePort : Prop :=
  (∀ (p : Port) (f : Frame) (s : State),
     (f.length < 64 ∨ 1522 < f.length ∨ f.drop (f.length - 4) ≠ fcsOf (f.take (f.length - 4))) →
     ∃ t, exec (.rxError p f) s = .next t ∧ t = { s with counters := t.counters } ∧ s.countsOnly t .rxError 1) ∧
  (∀ (p : Port) (f : Frame) (s : State), frameOk f = true → isCcf f = true →
     let c := readCcf f
     (isUntagged f = true → (p = .wan ∨ p = .aOut ∨ p = .bOut ∨ (p = .lan ∧ s.param .lanManagement ≠ 1)) →
       exec (.refusedCcf p f) s = .next ((s.inc (.framesIn p)).inc .ccfPortDrop)) ∧
     (isUntagged f = false → exec (.refusedCcf p f) s = .next ((s.inc (.framesIn p)).inc .ccfMalformed)) ∧
     (isUntagged f = true → (p = .aIn ∨ p = .bIn ∨ (p = .lan ∧ s.param .lanManagement = 1)) →
       (¬ ∃ k, c.version = 1#8 ∧ c.kind = CcfKind.code k ∧ s.takenAt k p = true ∧ c.length ≤ c.rest.length ∧
         bodyOk k c = true) →
       exec (.refusedCcf p f) s = .next ((s.inc (.framesIn p)).inc .ccfMalformed)))

/-! ## Data frames (chapter 4) -/

/-- R81, R83: a data frame from a firewall port that is neither the active firewall's nor the old active firewall's during
the late window is dropped and counted, whatever its class. -/
def Obligations.StandbyEmissionIsDropped : Prop :=
  ∀ (p : Port) (f : Frame) (s : State), isDataFrame f = true → ¬ s.mayEmit p →
    ∃ t, exec (.dataFrame p f) s = .next t ∧ t = { s with counters := t.counters } ∧
      t.count .standbyEmit = min (s.count .standbyEmit + 1) 4294967295 ∧
      t.count (.framesIn p) = min (s.count (.framesIn p) + 1) 4294967295 ∧
      ∀ d, d ≠ .standbyEmit → d ≠ .framesIn p → t.count d = s.count d

/-- R70, R73 to R77, R79, R80, R81: a PASS frame goes to the port it is steered to, or is dropped in TX_DROP when that port has
no room, and a DISCARD frame is dropped. A SHADOW frame from LAN or WAN also goes, unaltered, to the standby's port on the same
side when there is a standby. A TRACK frame that matches no entry and is no qualifying SYN is forwarded like a PASS frame (R16,
R84). Nothing else changes. -/
def Obligations.UntrackedFramesAreSteered : Prop :=
  (∀ (p q : Port) (f : Frame) (s : State), isDataFrame f = true → s.mayEmit p → s.steersTo p q →
     (s.classify (readFrame f) = .pass → s.hasRoom q 1 →
       exec (.dataFrame p f) s = .next ((s.inc (.framesIn p)).queued q f)) ∧
     (s.classify (readFrame f) = .pass → ¬ s.hasRoom q 1 →
       exec (.dataFrame p f) s = .next ((s.inc (.framesIn p)).inc .txDrop)) ∧
     (s.classify (readFrame f) = .discard → exec (.dataFrame p f) s = .next ((s.inc (.framesIn p)).inc .discard))) ∧
  (∀ (p q : Port) (f : Frame) (s : State), isDataFrame f = true → s.mayEmit p → s.steersTo p q →
     s.classify (readFrame f) = .shadow → s.hasRoom q 1 →
     (p = .lan → s.usable s.role.active.other = true → s.hasRoom s.role.active.other.inPort 1 →
       exec (.dataFrame p f) s = .next (((s.inc (.framesIn p)).queued q f).queued s.role.active.other.inPort f)) ∧
     (p = .wan → s.usable s.role.active.other = true → s.hasRoom s.role.active.other.outPort 1 →
       exec (.dataFrame p f) s = .next (((s.inc (.framesIn p)).queued q f).queued s.role.active.other.outPort f)) ∧
     (p.fw? ≠ none ∨ s.usable s.role.active.other = false →
       exec (.dataFrame p f) s = .next ((s.inc (.framesIn p)).queued q f))) ∧
  (∀ (p q : Port) (f : Frame) (s : State) (v : SessionView),
     isDataFrame f = true → s.mayEmit p → s.steersTo p q → s.hasRoom q 1 → readFrame f = .session v →
     s.classify (.session v) = .track → s.lookup (frameKey p v) = none →
     (p = .lan ∨ p = .aIn ∨ p = .bIn ∨ v.proto ≠ .tcp ∨
       ∃ g, v.seg = some g ∧ (g.syn = false ∨ g.ackFlag = true ∨ g.rst = true)) →
     exec (.dataFrame p f) s = .next ((s.inc (.framesIn p)).queued q f))

/-- R16, R26, R30, R31, R32, R83, R84, R168: a TRACK frame that matches an entry and does not park is forwarded; it sets
the entry's idle tag to 0, and on the outside side the entry's TCP fields become what the steps of one segment make them,
an anomaly being counted once. Every other entry stays. -/
def Obligations.MatchedFrameIsForwardedAndTracked : Prop :=
  ∀ (p q : Port) (f : Frame) (s : State) (v : SessionView) (h : Nat) (e : Entry),
    isDataFrame f = true → s.mayEmit p → s.steersTo p q → s.hasRoom q 1 → readFrame f = .session v →
    s.classify (.session v) = .track → s.lookup (frameKey p v) = some h → s.entry? h = some e →
    ((p = .lan ∨ p = .wan) → e.marked = false ∧ e.chain = []) →
    ∃ t e', exec (.dataFrame p f) s = .next t ∧ t.entry? h = some e' ∧ s.othersKept t h ∧
      t.ports = (s.queued q f).ports ∧
      e'.idleTag = 0 ∧ e'.phase = e.phase ∧ e'.outside = e.outside ∧ e'.declared? = e.declared? ∧
      (trackDir p e v = none → e'.tcp = e.tcp) ∧
      (∀ x g d, e.tcp = some x → v.seg = some g → trackDir p e v = some d →
        e'.tcp = some (x.segment d g).tracking ∧
          t.count .anomalies = (if (x.segment d g).anomaly then min (s.count .anomalies + 1) 4294967295
            else s.count .anomalies))

/-- R2, R4, R5, R15, R17, R19, R20, R21: a qualifying SYN on the outside side that matches nothing is forwarded and opens a
TENTATIVE entry at the lowest free handle, with its outside key in the Key Index and the SYN tracked against it. One that fails a
check is forwarded untracked and counted once, and TENTATIVE_LIMIT is raised exactly when the tentative count is at the limit. -/
def Obligations.SynOpensATentativeEntryOrIsUntracked : Prop :=
  (∀ (p q : Port) (f : Frame) (s : State) (v : SessionView) (g : Segment) (h : Nat),
     isDataFrame f = true → s.mayEmit p → s.steersTo p q → s.hasRoom q 1 → readFrame f = .session v →
     s.classify (.session v) = .track → s.lookup (frameKey p v) = none → v.proto = .tcp → v.seg = some g →
     (p = .wan ∨ p = .aOut ∨ p = .bOut) → g.syn = true → g.ackFlag = false → g.rst = false →
     s.table.tentative < s.param .tentativeLimit → s.bucketLoad (s.bucket (frameKey p v)) < 4 →
     h < 16384 → s.entry? h = none → (∀ g, g < h → s.entry? g ≠ none) → s.tableOk →
     ∃ t, exec (.dataFrame p f) s = .next t ∧ s.othersKept t h ∧
       t.entry? h = some
         { family := v.family, proto := .tcp
           outside := if p = .wan then { loc := v.dst, rem := v.src } else { loc := v.src, rem := v.dst }
           initiator := if p = .wan then .rem else .loc
           agingClass := 0, idleTag := 0
           tcp := some (Tracking.segment
             { out := { hiSeq := none, hiAck := none, maxWin := none }, inn := { hiSeq := none, hiAck := none, maxWin := none },
               scaleOut := 0, scaleIn := 0, scaleKnown := false, anomalies := 0 } (if p = .wan then .inn else .out) g).tracking
           body := .tentative } ∧
       SMap.get? t.table.slots (2 * h + 1) = some { bucket := s.bucket (frameKey p v), key := frameKey p v } ∧
       t.table.occupancy = s.table.occupancy + 1 ∧ t.table.tentative = s.table.tentative + 1 ∧
       t.count .tentativeCreated = min (s.count .tentativeCreated + 1) 4294967295 ∧ t.port q = (s.queued q f).port q) ∧
  (∀ (p q : Port) (f : Frame) (s : State) (v : SessionView) (g : Segment),
     isDataFrame f = true → s.mayEmit p → s.steersTo p q → s.hasRoom q 1 → readFrame f = .session v →
     s.classify (.session v) = .track → s.lookup (frameKey p v) = none → v.proto = .tcp → v.seg = some g →
     (p = .wan ∨ p = .aOut ∨ p = .bOut) → g.syn = true → g.ackFlag = false → g.rst = false →
     (s.param .tentativeLimit ≤ s.table.tentative ∨ 4 ≤ s.bucketLoad (s.bucket (frameKey p v)) ∨ s.freeHandle = none) →
     ∃ t, exec (.dataFrame p f) s = .next t ∧ t = { s with ports := t.ports, counters := t.counters, events := t.events } ∧
       t.port q = (s.queued q f).port q ∧ t.count .untrackedSyn = min (s.count .untrackedSyn + 1) 4294967295 ∧
       t.event .tentativeLimit = if s.param .tentativeLimit ≤ s.table.tentative then (s.event .tentativeLimit).next
         else s.event .tentativeLimit)

/-- R167 to R170, R181: a TRACK frame from LAN or WAN of a LIVE entry that is marked or has a chain is not forwarded, to no
port: no queue gains a frame but for NOTICE frames, and none gains even those where no park level is newly reached. With cells
and room in its chain the frame joins the chain's tail, and begins the chain's age when it is the first; a park level flag is then
set that was, or whose level the cells in use have reached. Otherwise the frame is dropped and counted in PARK_DROP. -/
def Obligations.FrameOfAMarkedEntryParks : Prop :=
  ∀ (p : Port) (f : Frame) (s : State) (v : SessionView) (h : Nat) (e : Entry) (d : Declared) (m : MirrorPart) (l : LivePart),
    isDataFrame f = true → (p = .lan ∨ p = .wan) → readFrame f = .session v → s.classify (.session v) = .track →
    s.lookup (frameKey p v) = some h → s.entry? h = some e → e.body = .live d m l → (l.marked = true ∨ l.chain ≠ []) →
    let cells := (f.length + 255) / 256
    (cells ≤ 4096 - s.park.cellsInUse → l.chain.length < s.param .parkLimit →
      ∃ t l', exec (.dataFrame p f) s = .next t ∧ (t.entry? h).bind Entry.live? = some l' ∧ s.othersKept t h ∧
        l'.chain = l.chain ++ [{ port := p, cls := .track, bytes := f, cells := cells }] ∧
        l'.chainAge = (if l.chain = [] then 0 else l.chainAge) ∧ l'.marked = l.marked ∧
        t.park.cellsInUse = s.park.cellsInUse + cells ∧ t.park.framesHeld = s.park.framesHeld + 1 ∧
        t.count .parked = min (s.count .parked + 1) 4294967295 ∧
        (∀ n, t.park.levels.get n = (s.park.levels.get n ||
          decide (s.param (.parkLevel n) * 4096 ≤ (s.park.cellsInUse + cells) * 100))) ∧
        (∀ x, x ≠ .aIn → x ≠ .bIn → x ≠ .lan → t.port x = s.port x) ∧
        (∀ x, ∃ ns, (t.port x).tx = (s.port x).tx ++ ns ∧ ∀ g ∈ ns, isCcfOf .notice g = true) ∧
        ((∀ n, s.park.levels.get n = true ∨ (s.park.cellsInUse + cells) * 100 < s.param (.parkLevel n) * 4096) →
          t.ports = s.ports)) ∧
    ((4096 - s.park.cellsInUse < cells ∨ s.param .parkLimit ≤ l.chain.length) →
      ∃ t, exec (.dataFrame p f) s = .next t ∧ t = { s with role := t.role, counters := t.counters } ∧
        t.count .parkDrop = min (s.count .parkDrop + 1) 4294967295 ∧
        t.role = { s.role with record := { s.role.record with
          dropped := if s.role.phase = .transfer ∨ s.role.phase = .settle then min (s.role.record.dropped + 1) 4294967295
            else s.role.record.dropped } })

/-! ## Sequence tracking (chapter 2) -/

/-- R32, R39, R40, R41, R42: an RST segment changes nothing; a segment whose end is after its right edge counts one anomaly and
teaches nothing; otherwise hi_seq of its direction takes the segment's end where it has none or the end is after it, and is
left where the end is not. Of a segment in window that carries an acknowledgement, one after the opposite hi_seq is an anomaly
and is not learned; any other becomes hi_ack where there is none or it is after it. -/
def Obligations.SegmentsAreCheckedAgainstTheEdges : Prop :=
  (∀ (x : Tracking) (d : Dir) (g : Segment),
     (g.rst = true → x.segment d g = { tracking := x, anomaly := false, moved := false }) ∧
     (∀ re, g.rst = false → x.rightEdge d = some re → isAfter g.endSeq re = true →
       x.segment d g = { tracking := { x with anomalies := min (x.anomalies + 1) 255 }, anomaly := true, moved := false }) ∧
     (g.rst = false → (∀ re, x.rightEdge d = some re → isAfter g.endSeq re = false) →
       (x.segment d g).moved = ((x.dir d).hiSeq.isNone || (x.dir d).hiSeq.any (fun q => isAfter g.endSeq q)) ∧
       ((x.segment d g).tracking.dir d).hiSeq = (if (x.segment d g).moved then some g.endSeq else (x.dir d).hiSeq) ∧
       ((x.segment d g).tracking.dir d.other).hiSeq = (x.dir d.other).hiSeq ∧
       ((x.segment d g).tracking.dir d.other).hiAck = (x.dir d.other).hiAck ∧
       ((x.segment d g).tracking.dir d.other).maxWin = (x.dir d.other).maxWin)) ∧
  (∀ (x : Tracking) (d : Dir) (g : Segment), g.rst = false → g.ackFlag = true →
     (∀ re, x.rightEdge d = some re → isAfter g.endSeq re = false) →
     (∀ q, (x.dir d.other).hiSeq = some q → isAfter g.ack q = true →
       (x.segment d g).anomaly = true ∧ (x.segment d g).tracking.anomalies = min (x.anomalies + 1) 255 ∧
         ((x.segment d g).tracking.dir d).hiAck = (x.dir d).hiAck) ∧
     ((∀ q, (x.dir d.other).hiSeq = some q → isAfter g.ack q = false) →
       (x.segment d g).anomaly = false ∧ (x.segment d g).tracking.anomalies = x.anomalies ∧
         ((x.segment d g).tracking.dir d).hiAck =
           (if (x.dir d).hiAck.isNone || (x.dir d).hiAck.any (fun q => isAfter g.ack q) then some g.ack else (x.dir d).hiAck)))

/-- R34, R35, R36, R42: whatever the segment, every scale stays at most 14, every valid max_win at most 1,073,725,440 and
the anomaly count at most 255, and a valid max_win of the segment's direction never falls. -/
def Obligations.ScalesWindowsAndAnomaliesStayCapped : Prop :=
  ∀ (x : Tracking) (d : Dir) (g : Segment),
    let ok : Tracking → Prop := fun y => y.scaleOut ≤ 14 ∧ y.scaleIn ≤ 14 ∧ y.anomalies ≤ 255 ∧
      (∀ w, y.out.maxWin = some w → w.toNat ≤ 1073725440) ∧ ∀ w, y.inn.maxWin = some w → w.toNat ≤ 1073725440
    ok x → ok (x.segment d g).tracking ∧
      ∀ w, (x.dir d).maxWin = some w → ∃ w', ((x.segment d g).tracking.dir d).maxWin = some w' ∧ w.toNat ≤ w'.toNat

/-- R94: what a request for a REFRESH of a LIVE entry comes to, by the entry's state at that moment. -/
def Obligations.RefreshRequestIsJudgedByTheEntry : Prop :=
  ∀ (s : State) (h : Nat) (e : Entry) (d : Declared) (m : MirrorPart) (l : LivePart),
    s.entry? h = some e → e.body = .live d m l →
    (s.mirror.state = .idle ∨ l.unprotected = true → s.requestRefresh h = s) ∧
    (s.mirror.state ≠ .idle → l.unprotected = false → m.inflight = none → m.queued = none → m.peer ≠ .current →
      s.requestRefresh h = s) ∧
    (s.mirror.state ≠ .idle → l.unprotected = false → (m.inflight ≠ none ∨ m.peer = .current) → m.queued = none →
      m.lane = none → (s.requestRefresh h).queuedOf h = some .refresh ∧
        (s.requestRefresh h).laneOf h = some (if l.marked = true ∨ s.role.phase = .quiesce then .urgent else .normal)) ∧
    (s.mirror.state ≠ .idle → l.unprotected = false → m.lane ≠ none → m.queued ≠ none →
      (s.requestRefresh h).queuedOf h = m.queued)

/-! ## Declarations (chapter 3) -/

/-- R48, R49, R210, R212: a DECLARE from a firewall that is neither active nor the source of a planned cutover in its late
window is refused whole: its records are counted, WRONG_ROLE occurs, and the sender's IN port is handed the notice even
when no target is named. No entry, sequence record or role changes. -/
def Obligations.DeclareFromTheWrongRoleIsRefusedWhole : Prop :=
  ∀ (f : Fw) (fr : Frame) (s : State), goodCcf .declare fr = true → s.role.active ≠ f →
    ¬ (s.role.source = some f ∧ s.role.kind = some .planned ∧ (s.role.phase = .transfer ∨ s.role.phase = .settle) ∧
        s.role.lateWindow.isRunning = true) →
    ∃ t, exec (.declare f.inPort fr) s = .next t ∧
      t = { s with ports := t.ports, counters := t.counters, events := t.events } ∧
      t.event .wrongRole = (s.event .wrongRole).next ∧ (∀ ev, ev ≠ .wrongRole → t.event ev = s.event ev) ∧
      t.count .refusedWrongRole = min (s.count .refusedWrongRole + (readCcf fr).records) 4294967295 ∧
      (∀ c, c ≠ .txDrop → c ≠ .framesIn f.inPort → c ≠ .refusedWrongRole → t.count c = s.count c) ∧
      (s.hasRoom f.inPort 1 → (t.port f.inPort).tx = (s.port f.inPort).tx ++
        [ccfFrame (s.fw f).learned s.unitAddress .notice 0#8 0#8 (BitVec.ofNat 16 (s.event .wrongRole).next.count)
          ([11#8, 4#8] ++ (be1 (Fw.code f) ++ be1 (s.assigned f).code ++ be2 (readCcf fr).seq.toNat))])

/-- R48, R51, R52, R53, R63, R64: an accepted DECLARE sets the sender's baseline, its expected value one above the header sequence mod
65,536, and the last received value; the other firewall's record, the active role and the epoch stay. One of no record, at a
moment at which no test ends an event, does nothing more than raise DECL_GAP, exactly when a baseline was set and the header
sequence was not the expected one. After the sequence check each record the walk reaches is applied, in payload order, to what the
records before it left; the walk ends at the record count, at 16 records, at the end of the payload, or with a record that cannot be
stepped over; the records promised and not reached are added to DECL_UNWALKED, and the tests and ROLE frames that end an event
follow. To apply a good PUT is to hand on what the PUT made, and to apply a good DROP is to make the DROP. -/
def Obligations.AcceptedDeclareSetsTheSequenceRecord : Prop :=
  (∀ (f : Fw) (fr : Frame) (s : State), goodCcf .declare fr = true →
     (s.role.active = f ∨ (s.role.source = some f ∧ s.role.kind = some .planned ∧
       (s.role.phase = .transfer ∨ s.role.phase = .settle) ∧ s.role.lateWindow.isRunning = true)) →
     ∃ t, exec (.declare f.inPort fr) s = .next t ∧
       t.decl.get f = some { expected := (readCcf fr).seq + 1, lastReceived := (readCcf fr).seq } ∧
       t.decl.get f.other = s.decl.get f.other ∧ t.role.active = s.role.active ∧ t.role.epoch = s.role.epoch) ∧
  (∀ (f : Fw) (fr : Frame) (s : State), goodCcf .declare fr = true → (readCcf fr).records = 0 → s.role.active = f →
     s.quiet →
     ∃ t, exec (.declare f.inPort fr) s = .next t ∧
       t = { s with ports := t.ports, counters := t.counters, events := t.events,
                    decl := s.decl.set f (some { expected := (readCcf fr).seq + 1, lastReceived := (readCcf fr).seq }) } ∧
       (∀ ev, ev ≠ .declGap → t.event ev = s.event ev) ∧
       t.event .declGap = (if (s.decl.get f).any (fun r => r.expected != (readCcf fr).seq) then (s.event .declGap).next
         else s.event .declGap) ∧
       ∀ c, c ≠ .txDrop → c ≠ .framesIn f.inPort → c ≠ .declUnwalked → t.count c = s.count c) ∧
  (∀ (f : Fw) (fr : Frame) (s : State) (rs : List (List Byte)) (more : List Byte), goodCcf .declare fr = true →
     (s.role.active = f ∨ (s.role.source = some f ∧ s.role.kind = some .planned ∧
       (s.role.phase = .transfer ∨ s.role.phase = .settle) ∧ s.role.lateWindow.isRunning = true)) →
     let c := readCcf fr
     let blob := fun r : List Byte => (word16At r 10).toNat
     let whole := fun r : List Byte => (byteAt r 1 = 4#8 ∧ r.length = 36 + blob r) ∨ (byteAt r 1 = 6#8 ∧ r.length = 84 + blob r)
     let stuck := fun r : List Byte => (byteAt r 1 ≠ 4#8 ∧ byteAt r 1 ≠ 6#8) ∨ (byteAt r 1 = 4#8 ∧ r.length < 36 + blob r) ∨
       (byteAt r 1 = 6#8 ∧ r.length < 84 + blob r)
     let reaches := fun xs : List (List Byte) =>
       exec (.declare f.inPort fr) s = .next ((s.inc (.framesIn f.inPort)).asEvent (fun t =>
         (((xs.zipIdx 1).foldl (fun (u : State) x => u.applyRecord f c.seq x.2 x.1) (t.checkSequence f c.seq)).add .declUnwalked
           (c.records - xs.length)).finish))
     c.payload = rs.flatten ++ more → (∀ r ∈ rs, whole r) →
     (rs.length = min c.records 16 → reaches rs) ∧
     (rs.length < min c.records 16 → more = [] → reaches rs) ∧
     (rs.length < min c.records 16 → more ≠ [] → stuck more → reaches (rs ++ [more]))) ∧
  (∀ (s : State) (f : Fw) (seq : Word16) (pos : Nat) (bs : List Byte) (r : DeclRecord), readDecl bs = some r →
     (∀ h t, r.put = true → s.put f r = .ok (h, t) → s.applyRecord f seq pos bs = t.handOnPut f h) ∧
     (r.put = false → s.applyRecord f seq pos bs = s.drop r))

/-- R53, R54, R55: a record refused for any reason raises DECL_REFUSED, advances its reason's counter and changes no entry,
no slot, no mirror state and no role. -/
def Obligations.RefusedRecordChangesNoEntry : Prop :=
  ∀ (s : State) (f : Fw) (seq : Word16) (pos : Nat) (bs : List Byte) (why : RefusalReason),
    (readDecl bs = none ∧ why = .badRecord ∨ ∃ r, readDecl bs = some r ∧ r.put = true ∧ s.put f r = .error why) →
    let t := s.applyRecord f seq pos bs
    t = { s with ports := t.ports, counters := t.counters, events := t.events } ∧
      t.event .declRefused = (s.event .declRefused).next ∧
      t.count why.counter = min (s.count why.counter + 1) 4294967295 ∧
      ∀ c, c ≠ .txDrop → c ≠ why.counter → t.count c = s.count c

/-- R2, R4, R5, R6, R17, R55, R61, R62: a PUT whose keys no LIVE or TENTATIVE entry holds, with an empty slot in each key's
bucket (two where they fall in one), makes a LIVE entry at the lowest free handle with the values R2 gives, and places both keys.
It waits behind the distinct RETIRING entries that hold one of its keys, 2 at most, and joins the blocks list of each, at the end
(the place in the list is the model's choice, log entry 28). Behind more than 2 it is refused KEY_CLASH. -/
def Obligations.PutAllocatesALiveEntry : Prop :=
  ∀ (s : State) (f : Fw) (r : DeclRecord) (h : Nat), s.tableOk →
    h < 16384 → s.entry? h = none → (∀ g, g < h → s.entry? g ≠ none) →
    s.holderIn r.insideKey .live = none → s.holderIn r.outsideKey .tentative = none → s.holderIn r.outsideKey .live = none →
    (s.bucket r.insideKey ≠ s.bucket r.outsideKey →
      s.bucketLoad (s.bucket r.insideKey) < 4 ∧ s.bucketLoad (s.bucket r.outsideKey) < 4) →
    (s.bucket r.insideKey = s.bucket r.outsideKey → s.bucketLoad (s.bucket r.insideKey) + 2 ≤ 4) →
    (∀ g x, s.entry? g = some x → h ∉ x.blocks) →
    let ws := s.retiringHolders r.insideKey r.outsideKey
    ws.Nodup ∧
    (∀ g, g ∈ ws ↔ s.phase g = .retiring ∧ (g ∈ s.holders r.insideKey ∨ g ∈ s.holders r.outsideKey)) ∧
    (2 < ws.length → s.put f r = .error .keyClash) ∧
    (ws.length ≤ 2 → ∃ t, s.put f r = .ok (h, t) ∧
      (∀ g, g ≠ h → g ∉ ws → t.entry? g = s.entry? g) ∧
      (∀ g x d m bs, g ∈ ws → s.entry? g = some x → x.body = .retiring d m bs →
        t.entry? g = some { x with body := .retiring d m (bs ++ [h]) }) ∧
      t.entry? h = some
        { family := r.family, proto := r.proto, outside := r.outside, initiator := r.initiator, agingClass := r.agingClass
          idleTag := 0
          tcp := if r.proto = .tcp then some
            { out := { hiSeq := none, hiAck := none, maxWin := none }, inn := { hiSeq := none, hiAck := none, maxWin := none },
              scaleOut := (r.scales.map (fun p => min p.1 14)).getD 0, scaleIn := (r.scales.map (fun p => min p.2 14)).getD 0,
              scaleKnown := r.scales.isSome, anomalies := 0 } else none
          body := .live
            { inside := r.inside, declaredBy := f, fwState := r.fwState, policy := r.policy, blob := r.blob }
            { edges := if r.proto = .tcp then
                some { out := { hiSeq := none, hiAck := none }, inn := { hiSeq := none, hiAck := none } } else none,
              peer := .absent, lane := none, queued := none, walk := false, inflight := none }
            { waits := ws.length, unprotected := false, marked := false, chain := [], chainAge := 0 } } ∧
      SMap.get? t.table.slots (2 * h) = some { bucket := s.bucket r.insideKey, key := r.insideKey } ∧
      SMap.get? t.table.slots (2 * h + 1) = some { bucket := s.bucket r.outsideKey, key := r.outsideKey } ∧
      t.table.occupancy = s.table.occupancy + 1 ∧ t.table.tentative = s.table.tentative ∧
      (∀ n, t.table.levels.get n = (s.table.levels.get n ||
        decide (s.param (.tableLevel n) * 16384 ≤ (s.table.occupancy + 1) * 100))) ∧
      t.count .entriesCreated = min (s.count .entriesCreated + 1) 4294967295 ∧ t.mirror = s.mirror ∧ t.role = s.role)

/-- R2, R5, R26, R37, R55 to R59, R62, R63, R92, R93, R158, R174. A PUT of the inside key of a LIVE entry, with the entry's outside
key, replaces the declared fields and nothing else: the outside tuple keeps its labels; the edges, the mirror fields, the mark and
the chain stay. One whose outside key differs remaps the entry, which waits anew behind the RETIRING holders of its keys; it is
refused KEY_CLASH for another LIVE holder or more than 2 waits, BUCKET_FULL without room, and a TENTATIVE holder is absorbed: freed,
and its tracking carried into an entry without edges, OUT and IN changing places where the record's labels are the other way
round. A PUT whose inside key no LIVE entry holds and whose outside key a TENTATIVE entry holds promotes that entry: it keeps its
handle, its outside tuple and its tracking, and takes the record's fields. An accepted PUT is counted and handed on: from a sender
that is not the mirror target, a DECLARE is queued and the inflight record superseded; from the target, the entry is CURRENT, owes
nothing, and its mark is cleared as confirmed; from the source of a planned cutover in its late window, an unmarked entry is
marked again, and leaves the Release Queue. -/
def Obligations.PutUpdatesTheEntryItFinds : Prop :=
  (∀ (s : State) (f : Fw) (r : DeclRecord) (h : Nat) (e : Entry) (d : Declared) (m : MirrorPart) (l : LivePart),
     s.holderIn r.insideKey .live = some h → s.entry? h = some e → e.body = .live d m l → e.outsideKey = r.outsideKey →
     s.put f r = .ok (h, s.setEntry h
       { family := e.family, proto := e.proto, outside := e.outside, initiator := r.initiator, agingClass := r.agingClass
         idleTag := 0
         tcp := match r.scales with
           | none => e.tcp
           | some p => e.tcp.map (fun x => { x with
               scaleOut := min p.1 14, scaleIn := min p.2 14, scaleKnown := true
               out := { x.out with maxWin := none }, inn := { x.inn with maxWin := none } })
         body := .live
           { inside := r.inside, declaredBy := f, fwState := r.fwState, policy := r.policy, blob := r.blob } m l })) ∧
  (∀ (s : State) (f : Fw) (r : DeclRecord) (h : Nat) (e : Entry) (d : Declared) (m : MirrorPart) (l : LivePart), s.tableOk →
     s.holderIn r.insideKey .live = some h → s.entry? h = some e → e.body = .live d m l → e.outsideKey ≠ r.outsideKey →
     let ws := s.retiringHolders r.insideKey r.outsideKey
     let room := s.bucket r.outsideKey = s.bucket e.outsideKey ∨ s.bucketLoad (s.bucket r.outsideKey) < 4
     let scaled := fun x : Tracking => match r.scales with
       | none => x
       | some p => { x with
           scaleOut := min p.1 14, scaleIn := min p.2 14, scaleKnown := true
           out := { x.out with maxWin := none }, inn := { x.inn with maxWin := none } }
     let body := Body.live { inside := r.inside, declaredBy := f, fwState := r.fwState, policy := r.policy, blob := r.blob } m
       { l with waits := ws.length }
     ((s.holderIn r.outsideKey .live ≠ none ∨ 2 < ws.length) → s.put f r = .error .keyClash) ∧
     (s.holderIn r.outsideKey .live = none → ws.length ≤ 2 → s.holderIn r.outsideKey .tentative = none → ¬ room →
       s.put f r = .error .bucketFull) ∧
     (s.holderIn r.outsideKey .live = none → ws.length ≤ 2 → s.holderIn r.outsideKey .tentative = none → room →
       ∃ t, s.put f r = .ok (h, t) ∧ t = { s with table := t.table } ∧
         t.entry? h = some { family := e.family, proto := e.proto, outside := r.outside, initiator := r.initiator,
                             agingClass := r.agingClass, idleTag := 0, tcp := e.tcp.map scaled, body := body } ∧
         SMap.get? t.table.slots (2 * h + 1) = some { bucket := s.bucket r.outsideKey, key := r.outsideKey } ∧
         SMap.get? t.table.slots (2 * h) = SMap.get? s.table.slots (2 * h) ∧
         (∀ g x d' m' bs, s.entry? g = some x → x.body = .retiring d' m' bs → ∃ bs',
           t.entry? g = some { x with body := .retiring d' m' bs' } ∧ (h ∈ bs' ↔ g ∈ ws) ∧
             bs'.filter (· != h) = bs.filter (· != h)) ∧
         t.table.occupancy = s.table.occupancy ∧ t.table.tentative = s.table.tentative) ∧
     (∀ g y, s.holderIn r.outsideKey .live = none → ws.length ≤ 2 → s.holderIn r.outsideKey .tentative = some g →
       s.entry? g = some y → ∃ t e', s.put f r = .ok (h, t) ∧ t.entry? g = none ∧ t.entry? h = some e' ∧
         e'.outside = r.outside ∧ e'.idleTag = 0 ∧ e'.body = body ∧
         (∀ x z, e.tcp = some x → y.tcp = some z →
           let fresh : DirEdges := { hiSeq := none, hiAck := none, maxWin := none }
           e'.tcp = some (scaled (if x.out = fresh ∧ x.inn = fresh then
             (if y.outside.loc ≠ y.outside.rem ∧ y.outside.loc = r.outside.rem then
               { z with out := z.inn, inn := z.out, scaleOut := z.scaleIn, scaleIn := z.scaleOut } else z) else x))) ∧
         SMap.get? t.table.slots (2 * h + 1) = some { bucket := s.bucket r.outsideKey, key := r.outsideKey } ∧
         SMap.get? t.table.slots (2 * g + 1) = none ∧
         t.table.occupancy = s.table.occupancy - 1 ∧ t.table.tentative = s.table.tentative - 1 ∧
         t.count .entriesFreed = min (s.count .entriesFreed + 1) 4294967295)) ∧
  (∀ (s : State) (f : Fw) (r : DeclRecord) (h : Nat) (e : Entry),
     s.holderIn r.insideKey .live = none → s.holderIn r.outsideKey .tentative = some h → s.entry? h = some e →
     s.bucketLoad (s.bucket r.insideKey) < 4 → s.retiringHolders r.insideKey r.outsideKey = [] →
     (∀ g x, s.entry? g = some x → h ∉ x.blocks) →
     ∃ t e', s.put f r = .ok (h, t) ∧ t.entry? h = some e' ∧ s.othersKept t h ∧
       e'.phase = .live ∧ e'.outside = e.outside ∧ e'.family = e.family ∧ e'.proto = e.proto ∧ e'.idleTag = 0 ∧
       e'.initiator = r.initiator ∧ e'.agingClass = r.agingClass ∧
       e'.declared? = some
         { inside := r.inside, declaredBy := f, fwState := r.fwState, policy := r.policy, blob := r.blob } ∧
       (r.scales = none → e'.tcp = e.tcp) ∧ e'.marked = false ∧ e'.chain = [] ∧ e'.waits = 0 ∧
       SMap.get? t.table.slots (2 * h) = some { bucket := s.bucket r.insideKey, key := r.insideKey } ∧
       t.table.tentative = s.table.tentative - 1 ∧ t.table.occupancy = s.table.occupancy ∧
       t.count .entriesPromoted = min (s.count .entriesPromoted + 1) 4294967295) ∧
  (∀ (s : State) (f : Fw) (h : Nat) (e : Entry) (d : Declared) (m : MirrorPart) (l : LivePart),
     s.entry? h = some e → e.body = .live d m l → (m.lane = none ↔ m.queued = none) → m.queued ≠ some .retire →
     let t := s.handOnPut f h
     let overtaken : Lane → MirrorPart := fun lane =>
       { m with
         peer := if m.peer = .current then .behind else m.peer
         inflight := m.inflight.map (fun i => { i with note := .superseded })
         walk := m.walk && !(m.lane.isSome && m.inflight.isNone)
         queued := some .declare, lane := some lane }
     let late := s.role.active ≠ f ∧ s.role.source = some f ∧ s.role.kind = some .planned ∧
       (s.role.phase = .transfer ∨ s.role.phase = .settle) ∧ s.role.lateWindow.isRunning = true
     s.othersKept t h ∧ t.count .declAccepted = min (s.count .declAccepted + 1) 4294967295 ∧
     (s.role.active = f → s.mirror.target = none →
       t.entry? h = some (e.withLive d m { l with unprotected := false })) ∧
     (s.role.active = f → s.mirror.target = some f.other →
       t.entry? h = some (e.withLive d
         (overtaken (if l.marked = true ∨ s.role.phase = .quiesce ∨ m.lane = some .urgent then .urgent else .normal))
         { l with unprotected := false })) ∧
     (s.role.active = f → s.mirror.target = some f →
       t.entry? h = some (e.withLive d
         { m with peer := .current, lane := none, queued := none
                  inflight := m.inflight.map (fun i => { i with note := .owned }) }
         { l with unprotected := false, marked := false }) ∧
       h ∉ t.mirror.urgent ∧ h ∉ t.mirror.normal ∧
       (l.marked = true → t.role.marked = s.role.marked - 1 ∧
         t.role.record.confirmed = min (s.role.record.confirmed + 1) 65535 ∧
         t.park.releaseQueue = s.park.releaseQueue ++ (if l.chain = [] then [] else [h])) ∧
       (l.marked = false → t.role = s.role ∧ t.park = s.park)) ∧
     (late → s.mirror.target = some f.other → l.marked = false →
       t.entry? h = some (e.withLive d (overtaken .urgent)
         { l with unprotected := false, marked := true, chainAge := if l.chain = [] then l.chainAge else 0 }) ∧
       t.role.marked = s.role.marked + 1 ∧ t.role.record.reMarked = min (s.role.record.reMarked + 1) 65535 ∧
       (l.chain = [] → t.mirror.urgent.getLast? = some h ∧ t.park = s.park) ∧
       (l.chain ≠ [] → t.mirror.urgent.head? = some h ∧
         t.park = { s.park with releaseQueue := s.park.releaseQueue.filter (· != h) })) ∧
     (late → s.mirror.target = some f.other → l.marked = true →
       t.entry? h = some (e.withLive d (overtaken .urgent) { l with unprotected := false }) ∧ t.role = s.role))

/-- R7, R62, R64, R95: a DROP names the LIVE entry that holds its inside key, or else the LIVE or TENTATIVE one that holds its
outside key. A LIVE entry that the target may hold becomes RETIRING and queues its RETIRE, an entry already queued keeping its
lane (the model's reading of R95 over R91, log entry 16); one that the target cannot hold is freed, its handle and both its slots;
so is a TENTATIVE one. A DROP that finds nothing is a miss. -/
def Obligations.DropRetiresOrFrees : Prop :=
  ∀ (s : State) (r : DeclRecord), s.tableOk →
    (∀ h e, (s.holderIn r.insideKey .live = some h ∨
        (s.holderIn r.insideKey .live = none ∧ s.lookup r.outsideKey = some h)) → s.entry? h = some e →
      (s.drop r).count .declAccepted = min (s.count .declAccepted + 1) 4294967295 ∧
      (∀ d m l, e.body = .live d m l → (m.peer ≠ .absent ∨ m.inflight ≠ none) →
        (s.drop r).phase h = .retiring ∧ (s.drop r).queuedOf h = some .retire ∧
          (m.lane ≠ none → (s.drop r).laneOf h = m.lane) ∧
          (m.lane = none → (s.drop r).laneOf h = some (if l.marked = true ∨ s.role.phase = .quiesce then .urgent else .normal))) ∧
      ((e.body = .tentative ∨ ∃ d m l, e.body = .live d m l ∧ m.peer = .absent ∧ m.inflight = none) →
        (s.drop r).entry? h = none ∧ (s.drop r).table.occupancy = s.table.occupancy - 1 ∧
        SMap.get? (s.drop r).table.slots (2 * h) = none ∧ SMap.get? (s.drop r).table.slots (2 * h + 1) = none)) ∧
    (s.holderIn r.insideKey .live = none → s.lookup r.outsideKey = none → s.drop r = s.inc .dropMiss)

/-- R50, R51, R65, R139, R152, R153, R154: in QUIESCE, a FLUSHED from the cutover source and an expiry of the quiesce timer each
end QUIESCE in a TRANSFER that moves the active role to the destination, stops the quiesce timer and marks the entries the
marking rule names. The FLUSHED raises DECL_GAP exactly when the source's last received value is set and differs from its
sequence, and changes no sequence record of the source. Any other FLUSHED is counted in FLUSHED_IGNORED and has no other effect; a
quiesce timer that does not run does not expire (log entry 8). -/
def Obligations.QuiesceEndsInTheMoveOfTheActiveRole : Prop :=
  (∀ (f : Fw) (fr : Frame) (s : State), goodCcf .flushed fr = true →
     (s.role.phase = .quiesce → s.role.source = some f →
       ∃ t, exec (.flushed f.inPort fr) s = .next t ∧ s.endsQuiesce t ∧
         t.event .declGap = (if (s.decl.get f).any (fun r => r.lastReceived != (readCcf fr).seq) then (s.event .declGap).next
           else s.event .declGap) ∧
         (s.role.active = f → t.decl.get f = s.decl.get f)) ∧
     (¬ (s.role.phase = .quiesce ∧ s.role.source = some f) →
       exec (.flushed f.inPort fr) s = .next ((s.inc (.framesIn f.inPort)).inc .flushedIgnored))) ∧
  (∀ s : State,
     (s.role.quiesce = .stopped → exec .quiesceTimerExpiry s = .next s) ∧
     (s.role.quiesce ≠ .stopped → s.role.phase = .quiesce → ∃ t, exec .quiesceTimerExpiry s = .next t ∧
       s.endsQuiesce t ∧ t.event .declGap = s.event .declGap ∧ t.health = s.health))

/-! ## The mirror channel (chapter 5) -/

/-- R91, R96, R97, R98, R99, R100, R133: with the mirror WALKING, STREAMING or PUSHING, no BEGIN-WALK pending, room in the
batch window and an eligible entry queued, PACK_BATCH forms one batch of the entries picked: each leaves its lane with the
batch's serial inflight, the batch takes the last slot, and its SYNC joins the target's IN queue. -/
def Obligations.PackingFormsOneBatch : Prop :=
  ∀ (s : State) (f : Fw), s.mirror.target = some f →
    (s.mirror.state = .walking ∨ s.mirror.state = .streaming ∨ s.mirror.state = .pushing) →
    s.mirror.beginPending = false → s.mirror.slots.length < s.param .batchWindow →
    (∃ h ∈ s.mirror.urgent ++ s.mirror.normal, s.eligible h = true) → s.hasRoom f.inPort 1 →
    ∃ t b, exec .packBatch s = .next t ∧ t.mirror.slots = s.mirror.slots ++ [b] ∧ b.age = 0 ∧ b.begin = false ∧
      b.serial = s.nextSerial ∧ b.records.map (·.handle) = s.pick ∧ t.mirror.nextSerial = b.serial + 1 ∧
      (∀ h ∈ s.pick, t.laneOf h = none ∧ t.queuedOf h = none ∧ h ∉ t.mirror.urgent ∧ h ∉ t.mirror.normal ∧
        ((t.entry? h).bind Entry.mirror?).bind (·.inflight) = some { serial := b.serial, note := .clean }) ∧
      (∀ h, h ∉ s.pick → t.entry? h = s.entry? h) ∧
      t.ports = (s.queued f.inPort (ccfFrame (s.fw f).learned s.unitAddress .sync 0#8 (BitVec.ofNat 8 b.records.length)
        b.serial (s.pick.map s.owedBytes).flatten)).ports ∧
      t.role = s.role ∧ s.countsOnly t .batchesSent 1

/-- R96, R97: the entries picked for a batch stand in a lane and are eligible; they are at most the record limit, and their
records are at most 1,440 bytes, the sum of the sizes of R97. They are the eligible entries of the lanes, URGENT from its head and
then NORMAL from its head, up to a stop: no eligible entry remains, or the next one is past the record limit or past 1,440 bytes. So
with a limit of 1 or more, an eligible entry queued and no blob above 64 bytes, some entry is picked. A queued entry is eligible when
nothing of it is inflight and it waits for none, and in SETTLE only when it is marked or blocks a marked one. -/
def Obligations.PickedBatchFitsItsFrame : Prop :=
  ∀ s : State, (∀ h ∈ s.pick, h ∈ s.mirror.urgent ++ s.mirror.normal ∧ s.eligible h = true) ∧
    s.pick.length ≤ s.param .recordLimit ∧ (s.pick.map s.owedBytes).flatten.length ≤ 1440 ∧
    (∀ h e d k, s.entry? h = some e → e.declared? = some d → s.queuedOf h = some k →
      (s.owedBytes h).length = (match k, e.family with
        | .declare, .v4 => 40 + (if e.tcp.isSome then 24 else 0) + d.blob.length
        | .declare, .v6 => 88 + (if e.tcp.isSome then 24 else 0) + d.blob.length
        | .refresh, _ => 28
        | .retire, _ => 4)) ∧
    s.pick.Sublist (s.mirror.urgent ++ s.mirror.normal) ∧
    (∃ front back, s.mirror.urgent ++ s.mirror.normal = front ++ back ∧ s.pick = front.filter s.eligible ∧
      ((∀ h ∈ back, s.eligible h = false) ∨ ∃ h more, back = h :: more ∧ s.eligible h = true ∧
        (s.pick.length = s.param .recordLimit ∨
          1440 < (s.pick.map s.owedBytes).flatten.length + (s.owedBytes h).length))) ∧
    ((∀ h e d, s.entry? h = some e → e.declared? = some d → d.blob.length ≤ 64) → 1 ≤ s.param .recordLimit →
      (∃ h ∈ s.mirror.urgent ++ s.mirror.normal, s.eligible h = true) → s.pick ≠ []) ∧
    ∀ h e m, s.entry? h = some e → e.mirror? = some m → (s.eligible h = true ↔
      m.queued ≠ none ∧ m.inflight = none ∧ e.waits = 0 ∧
        (s.role.phase ≠ .settle ∨ e.marked = true ∨ ∃ g ∈ e.blocks, s.isMarked g = true))

/-- R102, R105, R107, R113, R116: a SYNC-ACK from the mirror target whose serial no outstanding batch holds is counted in STRAY_ACK
and has no other effect. That of the outstanding BEGIN-WALK batch empties its slot, clears begin pending and sets the
consecutive-timeout count to 0, whatever statuses it lists; while the cursor has handles to examine the walk goes on, and a walk
whose cursor is at 16,384 with no walk record pending ends: the mirror is STREAMING and WALK_DONE occurs. One that lists no status
puts back every record of its batch (said of records of unmarked entries). Whatever the batch and the statuses, its slot is emptied
and the status in each position is applied to the record in that position, first to last, on what the statuses before it left; the
records without a status are returned, statuses beyond the last record are disregarded, and the tests and ROLE frames that end an
event follow. A status byte that is neither ACCEPT nor REFUSE_FULL is taken as REFUSE_BAD. -/
def Obligations.SyncAckIsMatchedByItsSerial : Prop :=
  (∀ (f : Fw) (fr : Frame) (s : State), goodCcf .syncAck fr = true → s.mirror.target = some f → s.quiet →
     (∀ b ∈ s.mirror.slots, b.serial ≠ (readCcf fr).seq) →
     exec (.syncAck f.inPort fr) s = .next ((s.inc (.framesIn f.inPort)).inc .strayAck)) ∧
  (∀ (f : Fw) (fr : Frame) (s : State) (b : Batch) (rest : List Batch), goodCcf .syncAck fr = true →
     s.mirror.target = some f → s.role.phase ≠ .settle →
     s.mirror.slots = b :: rest → b.serial = (readCcf fr).seq → (∀ x ∈ rest, x.serial ≠ b.serial) →
     (s.mirror.cursor < 16384 → b.begin = true → b.records = [] →
       exec (.syncAck f.inPort fr) s = .next { s.inc (.framesIn f.inPort) with
         mirror := { s.mirror with slots := rest, timeouts := 0, beginPending := false } }) ∧
     (s.mirror.state = .walking → s.mirror.cursor = 16384 → s.mirror.walkPending = 0 → b.begin = true → b.records = [] →
       s.param .preemptPreferred = 0 → s.role.dwell ≠ .complete →
       ∃ t, exec (.syncAck f.inPort fr) s = .next t ∧
         t = { s with ports := t.ports, counters := t.counters, events := t.events
                      mirror := { s.mirror with slots := rest, timeouts := 0, beginPending := false, state := .streaming } } ∧
         t.event .walkDone = (s.event .walkDone).next ∧ ∀ ev, ev ≠ .walkDone → t.event ev = s.event ev) ∧
     (s.mirror.state ≠ .walking → b.begin = false → (readCcf fr).records = 0 → s.canPutBack b.records →
       ∃ t, exec (.syncAck f.inPort fr) s = .next t ∧ s.putsBack t b.records ∧ t.mirror.slots = rest ∧
         t.mirror.timeouts = 0 ∧ t.mirror.state = s.mirror.state ∧ s.countsOnly t (.framesIn f.inPort) 1 ∧ t.role = s.role)) ∧
  (∀ (f : Fw) (fr : Frame) (s : State) (before after : List Batch) (b : Batch), goodCcf .syncAck fr = true →
     s.mirror.target = some f → s.mirror.slots = before ++ b :: after → b.serial = (readCcf fr).seq →
     (∀ x ∈ before ++ after, x.serial ≠ b.serial) →
     let statuses := ((readCcf fr).payload.take (readCcf fr).records).map
       (fun x => if x = 0#8 then SyncStatus.accept else if x = 1#8 then SyncStatus.refuseFull else SyncStatus.refuseBad)
     exec (.syncAck f.inPort fr) s = .next ((s.inc (.framesIn f.inPort)).asEvent (fun t =>
       (((b.records.zip statuses).foldl (fun (u : State) x => u.applyStatus b.serial x.1 x.2)
         { t with mirror := { t.mirror with
             slots := before ++ after, timeouts := 0, beginPending := t.mirror.beginPending && !b.begin } }).returnRecords
         (b.records.drop statuses.length)).finish)))

/-- R103, R104, R115, R156: one status of a DECLARE record of an unmarked LIVE entry, by the note beside its inflight serial: the
peer state, the mirrored edges, the unprotected flag and the walk flag it leaves. An accepted REFRESH record sets the mirrored
edges to its snapshot, a refused one changes nothing but RECORDS_REFUSED. After the status of a record of a marked entry the mark
is tested: cleared as confirmed where the entry is CURRENT without a need, a record or any drift; kept, with a REFRESH queued in
URGENT, where an accepted record leaves drift; cleared as released unconfirmed by a refused DECLARE that leaves the entry
unprotected; and kept, with no need, by a refused REFRESH that leaves drift. A mark cleared puts a chain that is not empty in the
Release Queue. -/
def Obligations.DeclareRecordIsSettledByItsNote : Prop :=
  (∀ (s : State) (serial : Word16) (r : BatchRecord) (st : SyncStatus) (e : Entry) (d : Declared) (m : MirrorPart)
     (l : LivePart) (i : Inflight),
     r.kind = .declare → s.entry? r.handle = some e → e.body = .live d m l → l.marked = false → m.inflight = some i →
     ∃ m' l', ((s.applyStatus serial r st).entry? r.handle).map (·.body) = some (.live d m' l') ∧ m'.inflight = none ∧
       (st = .accept → m'.peer = (if i.note = .superseded then .behind else .current) ∧ l'.unprotected = false ∧
         m'.queued = m.queued ∧ (∀ x, m.edges.isSome = true → r.edges = some x → m'.edges = some x) ∧
         (s.applyStatus serial r st).count .recordsAccepted = min (s.count .recordsAccepted + 1) 4294967295) ∧
       (st ≠ .accept → m'.peer = m.peer ∧ m'.edges = m.edges ∧
         (s.applyStatus serial r st).count .recordsRefused = min (s.count .recordsRefused + 1) 4294967295) ∧
       (st ≠ .accept → i.note ≠ .owned → l'.unprotected = true ∧ m'.queued = none ∧ m'.lane = none ∧
         (s.applyStatus serial r st).event .syncRefused = (s.event .syncRefused).next) ∧
       (st ≠ .accept → i.note = .owned → l'.unprotected = l.unprotected ∧ m'.queued = m.queued) ∧
       m'.walk = (m.walk && !r.walk)) ∧
  (∀ (s : State) (serial : Word16) (r : BatchRecord) (st : SyncStatus) (e : Entry) (d : Declared) (m : MirrorPart)
     (l : LivePart) (i : Inflight),
     r.kind = .refresh → s.entry? r.handle = some e → e.body = .live d m l → l.marked = false → m.inflight = some i →
     let t := s.applyStatus serial r st
     t = { s with table := t.table, counters := t.counters } ∧ s.othersKept t r.handle ∧
       (st = .accept → t.entry? r.handle = some (e.withLive d
           { m with inflight := none
                    edges := if m.edges.isSome = true ∧ r.edges.isSome = true then r.edges else m.edges } l) ∧
         s.countsOnly t .recordsAccepted 1) ∧
       (st ≠ .accept → t.entry? r.handle = some (e.withLive d { m with inflight := none } l) ∧
         s.countsOnly t .recordsRefused 1)) ∧
  (∀ (s : State) (serial : Word16) (r : BatchRecord) (st : SyncStatus) (e : Entry) (d : Declared) (m : MirrorPart)
     (l : LivePart) (i : Inflight),
     s.entry? r.handle = some e → e.body = .live d m l → l.marked = true → m.inflight = some i →
     let t := s.applyStatus serial r st
     let done := st = .accept ∧ m.queued = none ∧
       ((r.kind = .refresh ∧ m.peer = .current) ∨ (r.kind = .declare ∧ i.note ≠ .superseded))
     let cleared := t.isMarked r.handle = false ∧ t.role.marked = s.role.marked - 1 ∧
       t.park.releaseQueue = s.park.releaseQueue ++ (if l.chain = [] then [] else [r.handle])
     (done → (e.tcp = none ∨ ∃ x y, e.tcp = some x ∧ m.edges = some y ∧ r.edges = some x.snapshot) →
       cleared ∧ t.role.record.confirmed = min (s.role.record.confirmed + 1) 65535 ∧
         t.count .releasedUnconfirmed = s.count .releasedUnconfirmed) ∧
     (done → (∃ x y z, e.tcp = some x ∧ m.edges = some y ∧ r.edges = some z ∧ z ≠ x.snapshot) →
       t.isMarked r.handle = true ∧ t.queuedOf r.handle = some .refresh ∧ t.laneOf r.handle = some .urgent ∧
         t.role = s.role ∧ t.park = s.park) ∧
     (r.kind = .declare → st ≠ .accept → i.note ≠ .owned →
       cleared ∧ t.role.record.released = min (s.role.record.released + 1) 65535 ∧
         t.count .releasedUnconfirmed = min (s.count .releasedUnconfirmed + 1) 4294967295) ∧
     (r.kind = .refresh → st ≠ .accept → e.anyDrift = true →
       t.isMarked r.handle = true ∧ t.queuedOf r.handle = m.queued ∧ t.role = s.role ∧ t.park = s.park))

/-- R8, R62, R104: a RETIRE record, whatever its status, frees its entry: no handle, slot or lane place of it is left. Each LIVE
entry in its blocks list, which names each once, loses one wait and no more, and one that then waits for none is eligible when it is
queued with nothing inflight, out of SETTLE. Every other entry stays. -/
def Obligations.RetireRecordFreesItsEntry : Prop :=
  ∀ (s : State) (serial : Word16) (r : BatchRecord) (st : SyncStatus) (e : Entry) (d : Declared) (m : MirrorPart)
    (bs : List Nat), s.tableOk → r.kind = .retire → s.entry? r.handle = some e → e.body = .retiring d m bs →
    m.inflight ≠ none →
    let t := s.applyStatus serial r st
    t.entry? r.handle = none ∧ t.table.occupancy = s.table.occupancy - 1 ∧ r.handle ∉ t.mirror.urgent ∧
      r.handle ∉ t.mirror.normal ∧ SMap.get? t.table.slots (2 * r.handle) = none ∧
      SMap.get? t.table.slots (2 * r.handle + 1) = none ∧
      t.count (if st = .accept then .recordsAccepted else .recordsRefused) =
        min (s.count (if st = .accept then .recordsAccepted else .recordsRefused) + 1) 4294967295 ∧
      (∀ g x, g ≠ r.handle → s.entry? g = some x → (g ∉ bs ∨ x.live? = none) → t.entry? g = some x) ∧
      (∀ g x d' m' l', bs.Nodup → g ∈ bs → s.entry? g = some x → x.body = .live d' m' l' →
        t.entry? g = some (x.withLive d' m' { l' with waits := l'.waits - 1 }) ∧
        (l'.waits = 1 → m'.queued ≠ none → m'.inflight = none → s.role.phase ≠ .settle → t.eligible g = true))

/-- R23, R101, R107, R108, R109, R159, R210: a confirm sweep expiry at which no outstanding batch is at age 2 raises each age tag
by one, starts the next period with its parameter's value, and changes nothing else. When the one batch outstanding times out its
records are put back (said of records of unmarked entries), and when the consecutive-timeout count reaches the stall count, a
STREAMING mirror stalls: its slots are empty, the restart hold runs and MIRROR_STALLED occurs. Below the stall count the mirror
streams on with the slot empty. A PUSHING mirror that reaches the stall count in TRANSFER stays PUSHING and raises no
MIRROR_STALLED: every mark is cleared, and TRANSFER ends with the cutover limit running on in SETTLE. In SETTLE the records of a
batch that times out are abandoned, and no lane changes. -/
def Obligations.ConfirmSweepAgesAndTimesOut : Prop :=
  (∀ s : State, s.quiet → (∀ b ∈ s.mirror.slots, b.age < 2) →
     exec .confirmSweepExpiry s = .next { s with
       sweepers := { s.sweepers with confirm := s.param .confirmSweep }
       mirror := { s.mirror with slots := s.mirror.slots.map (fun b => { b with age := b.age + 1 }) } }) ∧
  (∀ (s : State) (b : Batch), s.mirror.state = .streaming → s.role.phase ≠ .settle → s.mirror.slots = [b] → b.age = 2 →
     b.begin = false →
     ∃ t, exec .confirmSweepExpiry s = .next t ∧ t.mirror.slots = [] ∧
       t.mirror.timeouts = min (s.mirror.timeouts + 1) 255 ∧
       t.count .batchTimeouts = min (s.count .batchTimeouts + 1) 4294967295 ∧
       (∀ r ∈ b.records, ((t.entry? r.handle).bind Entry.mirror?).bind (·.inflight) = none) ∧
       (s.canPutBack b.records → s.putsBack t b.records) ∧
       (s.param .stallCount ≤ min (s.mirror.timeouts + 1) 255 →
         t.mirror.state = .stalled ∧ t.mirror.restartHold = .running (s.param .confirmSweep) ∧
           t.event .mirrorStalled = (s.event .mirrorStalled).next) ∧
       (min (s.mirror.timeouts + 1) 255 < s.param .stallCount →
         t.mirror.state = .streaming ∧ t.event .mirrorStalled = s.event .mirrorStalled)) ∧
  (∀ (s : State) (b : Batch), s.tableOk → s.mirror.state = .pushing → s.role.phase = .transfer → s.mirror.slots = [b] →
     b.age = 2 → b.begin = false → s.param .stallCount ≤ min (s.mirror.timeouts + 1) 255 →
     ∃ t, exec .confirmSweepExpiry s = .next t ∧ (∀ h, t.isMarked h = false) ∧
       (t.role.phase = .settle ∨ t.role.phase = .none) ∧
       (t.role.phase = .settle → t.mirror.state = .pushing ∧ t.role.cutLimit = s.role.cutLimit) ∧
       t.event .mirrorStalled = s.event .mirrorStalled ∧ t.role.active = s.role.active) ∧
  (∀ (s : State) (b : Batch), s.mirror.state = .pushing → s.role.phase = .settle → s.park.framesHeld ≠ 0 →
     s.mirror.slots = [b] → b.age = 2 → b.begin = false → min (s.mirror.timeouts + 1) 255 < s.param .stallCount →
     ∃ t, exec .confirmSweepExpiry s = .next t ∧
       t.mirror = { s.mirror with slots := [], timeouts := min (s.mirror.timeouts + 1) 255 } ∧ t.role = s.role ∧
       s.countsOnly t .batchTimeouts 1 ∧
       (∀ r ∈ b.records, ∀ m, (s.entry? r.handle).bind Entry.mirror? = some m →
         (t.entry? r.handle).bind Entry.mirror? = some { m with inflight := none }) ∧
       ∀ h, h ∉ b.records.map (·.handle) → t.entry? h = s.entry? h)

/-- R114: in a walk with fewer than 512 entries queued and handles left, the cursor examines its handle and advances by
one. A LIVE entry that is ABSENT, not queued, not inflight and not unprotected joins the tail of NORMAL with a DECLARE and
its walk flag; at any other handle nothing is queued. -/
def Obligations.WalkCursorQueuesWhatTheTargetLacks : Prop :=
  ∀ s : State, s.mirror.state = .walking → s.mirror.urgent.length + s.mirror.normal.length < 512 →
    s.mirror.cursor < 16383 → s.role.phase ≠ .settle → s.tableOk →
    (∀ e d m l, s.entry? s.mirror.cursor = some e → e.body = .live d m l → m.peer = .absent → m.queued = none →
      m.inflight = none → l.unprotected = false → s.mirror.cursor ∉ s.mirror.urgent → s.mirror.cursor ∉ s.mirror.normal →
      exec .walkCursorStep s = .next { s.setEntry s.mirror.cursor
          { e with body := .live d { m with lane := some .normal, queued := some .declare, walk := true } l } with
        mirror := { s.mirror with
          normal := s.mirror.normal ++ [s.mirror.cursor], cursor := s.mirror.cursor + 1,
          walkPending := s.mirror.walkPending + 1, walkQueued := s.mirror.walkQueued + 1 } }) ∧
    (¬ (∃ e d m l, s.entry? s.mirror.cursor = some e ∧ e.body = .live d m l ∧ m.peer = .absent ∧ m.queued = none ∧
        m.inflight = none ∧ l.unprotected = false) →
      exec .walkCursorStep s = .next { s with mirror := { s.mirror with cursor := s.mirror.cursor + 1 } })

/-! ## Firewall health (chapter 6) -/

/-- R110, R122 to R127, R131, R144: a PULSE leaves the sender's health record as the tables of R126 and R127 give it, with the
sequence, claimed role, fitness and source address of the frame, and the other record as it was. FW_DOWN occurs exactly at an
entry into DOWN and FW_UP exactly at an entry into UP that is no return from SUSPECT (one straight from ABSENT or DOWN among them:
log entry 23). A PULSE of an UP firewall that is the target of a STALLED mirror, its restart hold expired, starts a walk. A PULSE
that makes the firewall that is not active UP, in phase NONE with no target, while the active one is not usable, makes an unplanned
TRANSFER to it for reason RECOVERY, when the dark flag is set or the startup wait over. -/
def Obligations.PulseMovesTheSendersHealth : Prop :=
  ∀ (f : Fw) (fr : Frame) (s : State), goodCcf .pulse fr = true →
    let c := readCcf fr
    let fit := (byteAt c.payload 1).toNat
    let h := s.fw f
    let up := (s.port f.inPort).link = .up ∧ (s.port f.outPort).link = .up
    let good := if h.state = .joining then min (h.good + 1) 15 else 1
    ∃ t, exec (.pulse f.inPort fr) s = .next t ∧ t.fw f.other = s.fw f.other ∧
      (t.fw f).misses = 0 ∧ (t.fw f).lastSeq = c.seq ∧ (t.fw f).fitness = fit ∧
      (t.fw f).claimed = (if byteAt c.payload 0 = 1#8 then .active else if byteAt c.payload 0 = 2#8 then .standby else .none) ∧
      (t.fw f).pulseTimer = .running (s.param .beatPeriod) ∧
      (t.fw f).learned = (if isGroup c.source then h.learned else c.source) ∧
      (fit = 0 → (t.fw f).good = 0 ∧ (t.fw f).state = (if h.state.isDown then h.state else .down .unfit)) ∧
      (fit ≠ 0 → ¬up → (t.fw f).state = if h.state.isDown then h.state else .down .link) ∧
      (fit ≠ 0 → up → (h.state = .up ∨ h.state = .suspect) → (t.fw f).state = .up) ∧
      (fit ≠ 0 → up → h.state ≠ .up → h.state ≠ .suspect →
        ((t.fw f).state = if s.param .rejoinCount ≤ good then .up else .joining) ∧
          (t.fw f).good = if s.param .rejoinCount ≤ good then 0 else good) ∧
      t.event .fwDown = (if h.state.isDown = false ∧ (t.fw f).state.isDown = true then (s.event .fwDown).next
        else s.event .fwDown) ∧
      t.event .fwUp = (if h.state ≠ .up ∧ h.state ≠ .suspect ∧ (t.fw f).state = .up then (s.event .fwUp).next
        else s.event .fwUp) ∧
      (fit ≠ 0 → up → h.state = .up → s.tableOk → s.mirror.state = .stalled → s.mirror.target = some f →
        s.mirror.restartHold = .expired →
        t.mirror = { target := some f, state := .walking, urgent := [], normal := []
                     slots := [{ serial := s.mirror.nextSerial, age := 0, begin := true, records := [] }]
                     nextSerial := s.mirror.nextSerial + 1, timeouts := 0, cursor := 0, walkPending := 0, walkQueued := 0
                     beginPending := true, restartHold := .stopped } ∧
          t.count .walks = min (s.count .walks + 1) 4294967295) ∧
      (fit ≠ 0 → up → h.state ≠ .up → h.state ≠ .suspect → s.param .rejoinCount ≤ good → s.role.active = f.other →
        s.usable f.other = false → s.role.phase = .none → s.mirror.target = none →
        (s.role.dark = true ∨ s.role.startup = .over) →
        s.transferredTo t f ∧ t.role.kind = some .unplanned ∧ t.role.reason = some .recovery ∧
          t.role.source = some f.other ∧ t.role.dest = some f ∧ (t.event .cutoverStart).flag = true)

/-- R125, R133, R134, R135, R137: a PULSE of fitness 1 or more from a firewall that is UP with both links UP, while nothing
waits on it, is answered with one ROLE frame that echoes its sequence, and a claimed role that differs from the assigned
role is counted. Nothing else but the sender's record and FRAMES_IN changes. -/
def Obligations.PulseOfAnUpFirewallIsAnswered : Prop :=
  ∀ (f : Fw) (fr : Frame) (s : State), goodCcf .pulse fr = true → (byteAt (readCcf fr).payload 1).toNat ≠ 0 →
    (s.fw f).state = .up → s.hasRoom f.inPort 1 → (s.port f.outPort).link = .up →
    s.param .preemptPreferred = 0 → s.param .fitnessPreemption = 0 → s.role.dwell = .stopped →
    s.mirror.state ≠ .stalled → isGroup (readCcf fr).source = false →
    ∃ t, exec (.pulse f.inPort fr) s = .next t ∧
      t = { s with ports := t.ports, health := t.health, counters := t.counters } ∧
      t.ports = (s.queued f.inPort (ccfFrame (readCcf fr).source s.unitAddress .role 0#8 0#8 (readCcf fr).seq
        (be1 (s.assigned f).code ++ be1 s.role.phase.code ++ beFlag s.ready ++ be2 s.role.epoch.toNat ++
          be1 (s.fw .a).state.code ++ be1 (s.fw .b).state.code))).ports ∧
      t.count .roleMismatch = (if (byteAt (readCcf fr).payload 0).toNat = (s.assigned f).code then s.count .roleMismatch
        else min (s.count .roleMismatch + 1) 4294967295) ∧
      ∀ c, c ≠ .roleMismatch → c ≠ .framesIn f.inPort → t.count c = s.count c

/-- R128: an expiry of a firewall's pulse timer counts a miss, restarts the timer and moves the health state as the table of
R128 gives it; the other firewall's record stays. FW_DOWN occurs at each entry into DOWN, and short of one the active firewall
and the epoch stay. -/
def Obligations.PulseTimerExpiryCountsAMiss : Prop :=
  ∀ (f : Fw) (s : State),
    let h := s.fw f
    let misses := min (h.misses + 1) 15
    h.pulseTimer ≠ .stopped → ∃ t, exec (.pulseTimerExpiry f) s = .next t ∧ t.fw f.other = s.fw f.other ∧
      t.fw f = { h with
        misses := misses
        pulseTimer := .running (s.param .beatPeriod)
        good := if h.state = .joining then 0 else h.good
        state :=
          if h.state = .up then .suspect
          else if h.state = .suspect then (if s.param .deadCount ≤ misses then .down .pulseLoss else .suspect)
          else if h.state = .joining then .down .pulseLoss
          else h.state } ∧
      ((h.state = .joining ∨ (h.state = .suspect ∧ s.param .deadCount ≤ misses)) → (t.event .fwDown).flag = true) ∧
      (h.state ≠ .joining → (h.state = .suspect → misses < s.param .deadCount) → t.role.active = s.role.active ∧
        t.role.epoch = s.role.epoch)

/-- R69, R70, R117, R129, R131, R140, R152, R210: a port that loses its link has its queue emptied into TX_DROP and PORT_LINK occurs.
On a firewall's port the firewall is DOWN with reason LINK at once, from any state, and FW_DOWN occurs; on LAN or WAN no health
record, role or entry changes. In phase NONE the loss of the firewall that is not active but is the mirror target takes the target
away: the Mirror Engine is IDLE and holds nothing, no entry is RETIRING, and every LIVE entry is ABSENT at the target with nothing
queued or inflight, without mirrored edges and not unprotected. In QUIESCE it aborts the cutover: the phase is NONE, the quiesce timer
is stopped, the active role stays and CUTOVER_ABORT occurs. A port already DOWN is left (log entry 8). -/
def Obligations.LinkLossMakesItsFirewallDown : Prop :=
  ∀ (p : Port) (s : State),
    ((s.port p).link = .down → exec (.linkDown p) s = .next s) ∧
    ((s.port p).link = .up → ∃ t, exec (.linkDown p) s = .next t ∧ t.port p = { link := .down, tx := [] } ∧
      (∀ q, q ≠ p → (t.port q).link = (s.port q).link) ∧ (t.event .portLink).flag = true ∧
      min (s.count .txDrop + (s.port p).tx.length) 4294967295 ≤ t.count .txDrop ∧
      (∀ f, p.fw? = some f → t.fw f.other = s.fw f.other ∧
        t.fw f = { s.fw f with
          state := .down .link, good := 0
          pulseTimer := if (s.fw f).state = .absent then .running (s.param .beatPeriod) else (s.fw f).pulseTimer } ∧
        (t.event .fwDown).flag = true) ∧
      (p.fw? = none → t = { s with ports := t.ports, counters := t.counters, events := t.events } ∧
        t.event .portLink = (s.event .portLink).next ∧ ∀ ev, ev ≠ .portLink → t.event ev = s.event ev) ∧
      (p.fw? = some s.role.active.other → (s.fw s.role.active.other).state.isDown = false → s.role.phase = .none →
        s.tableOk → s.mirror.target = some s.role.active.other →
        t.mirror = { target := none, state := .idle, urgent := [], normal := [], slots := []
                     nextSerial := s.mirror.nextSerial, timeouts := 0, cursor := 16384, walkPending := 0, walkQueued := 0
                     beginPending := false, restartHold := .stopped } ∧
        t.role.phase = .none ∧ t.role.active = s.role.active ∧ (∀ h, t.phase h ≠ .retiring) ∧
        ∀ h e d m l, s.entry? h = some e → e.body = .live d m l → ∃ l', (t.entry? h).map (·.body) = some (.live d
          { edges := m.edges.map (fun _ => { out := { hiSeq := none, hiAck := none }, inn := { hiSeq := none, hiAck := none } }),
            peer := .absent, lane := none, queued := none, walk := false, inflight := none } l') ∧
          l'.unprotected = false ∧ l'.marked = l.marked ∧ l'.chain = l.chain) ∧
      (p.fw? = some s.role.active.other → (s.fw s.role.active.other).state.isDown = false → s.role.phase = .quiesce →
        t.role.phase = .none ∧ t.role.quiesce = .stopped ∧ t.role.active = s.role.active ∧ t.role.epoch = s.role.epoch ∧
        t.mirror.target = none ∧ (t.event .cutoverAbort).flag = true ∧
        t.count .cutoverAborts = min (s.count .cutoverAborts + 1) 4294967295))

/-- R69, R70, R129, R210: a port that establishes its link is UP, PORT_LINK occurs, and no health record, role or entry
changes. A port sends the frame at the head of its transmit queue and counts it in FRAMES_OUT. A port already UP, and one with
nothing to send, are left (log entry 8). -/
def Obligations.LinkRiseAndTransmission : Prop :=
  (∀ (p : Port) (s : State),
     ((s.port p).link = .up → exec (.linkUp p) s = .next s) ∧
     ((s.port p).link = .down → ∃ t, exec (.linkUp p) s = .next t ∧ (t.port p).link = .up ∧
       t = { s with ports := t.ports, counters := t.counters, events := t.events } ∧
       (∀ q, q ≠ p → (t.port q).link = (s.port q).link) ∧ t.event .portLink = (s.event .portLink).next ∧
       (∀ ev, ev ≠ .portLink → t.event ev = s.event ev) ∧ ∀ c, c ≠ .txDrop → t.count c = s.count c)) ∧
  (∀ (p : Port) (s : State),
     ((s.port p).tx = [] → exec (.transmitFrame p) s = .next s) ∧
     ∀ f rest, (s.port p).tx = f :: rest →
       exec (.transmitFrame p) s = .next ((s.setPort p { link := (s.port p).link, tx := rest }).inc (.framesOut p)))

/-! ## Roles and cutover (chapter 7) -/

/-- R89, R122, R134, R140: the assigned role of each firewall, derived from the active firewall and the health states; and the
standby is ready exactly when the firewall that is not active is UP, is the mirror target, and the mirror is STREAMING. -/
def Obligations.AssignedRoleAndReadinessAreDerived : Prop :=
  (∀ (s : State) (f : Fw),
     (s.role.active = f → s.assigned f = .active) ∧
     (s.role.active ≠ f → (s.fw f).state = .up ∨ (s.fw f).state = .suspect → s.assigned f = .standby) ∧
     (s.role.active ≠ f →
       (s.fw f).state = .absent ∨ (s.fw f).state = .joining ∨ (∃ r, (s.fw f).state = .down r) → s.assigned f = .none)) ∧
  (∀ s : State, s.ready = true ↔
     (s.fw s.role.active.other).state = .up ∧ s.mirror.target = some s.role.active.other ∧ s.mirror.state = .streaming)

/-- R139, R143, R152, R153, R161, R162, R175, R177: the loss of a link of the active firewall, not DOWN before. In phase NONE it moves
the active role to the other firewall when that one is usable, as one unplanned cutover for reason FAILURE; otherwise the part goes
dark and the active role stays. In QUIESCE the cutover becomes UNPLANNED, keeps its reason and goes on to TRANSFER at once, without
another CUTOVER_START. In TRANSFER and SETTLE a usable other firewall takes the active role back: no entry stays marked, the chains of
the marked ones join the Release Queue, the target is none and CUTOVER_ABORT occurs. Without one the part goes dark in phase NONE:
no entry stays marked, every chain is emptied into PARK_DISCARDED with its age as it was, the Release Queue is empty, the target is
none, and DARK and CUTOVER_ABORT occur. -/
def Obligations.LossOfTheActiveFirewall : Prop :=
  (∀ (p : Port) (s : State), p.fw? = some s.role.active → (s.port p).link = .up → (s.fw s.role.active).state.isDown = false →
    s.role.phase = .none → s.param .holdDown ≠ 0 →
    (s.usable s.role.active.other = true → ∃ t, exec (.linkDown p) s = .next t ∧
      s.transferredTo t s.role.active.other ∧ t.role.kind = some .unplanned ∧ t.role.reason = some .failure ∧
      t.role.source = some s.role.active ∧ t.role.dest = some s.role.active.other ∧
      t.role.lateWindow = (if t.role.phase = .none then .stopped else s.role.lateWindow) ∧
      (t.event .cutoverStart).flag = true ∧
      (s.count .cutoversUnplanned < 4294967295 → s.count .cutoversUnplanned < t.count .cutoversUnplanned)) ∧
    (s.usable s.role.active.other = false → s.mirror.state ≠ .walking → ∃ t, exec (.linkDown p) s = .next t ∧
      t.role = { s.role with dark := true, dwell := .stopped } ∧ (t.event .dark).flag = true ∧ t.table = s.table ∧
      t.mirror = s.mirror ∧ t.decl = s.decl)) ∧
  (∀ (p : Port) (s : State), p.fw? = some s.role.active → (s.port p).link = .up → (s.fw s.role.active).state.isDown = false →
    s.tableOk →
    (s.role.phase = .quiesce → ∃ t, exec (.linkDown p) s = .next t ∧ s.transferredTo t s.role.active.other ∧
      t.role.kind = some .unplanned ∧ t.role.reason = s.role.reason ∧ t.role.quiesce = .stopped ∧ t.role.phase ≠ .quiesce ∧
      t.event .cutoverStart = s.event .cutoverStart ∧
      (s.count .cutoversUnplanned < 4294967295 → s.count .cutoversUnplanned < t.count .cutoversUnplanned)) ∧
    ((s.role.phase = .transfer ∨ s.role.phase = .settle) → s.usable s.role.active.other = true →
      ∃ t, exec (.linkDown p) s = .next t ∧ s.movedTo t s.role.active.other ∧
        t.role.holdDown = Timer.start (s.param .holdDown) ∧ t.role.lateWindow = .stopped ∧
        (t.role.phase = .settle ∨ t.role.phase = .none) ∧ t.role.source = s.role.source ∧ t.role.dest = s.role.dest ∧
        (t.role.phase = .settle → t.role.cutLimit = s.role.cutLimit) ∧ t.mirror.target = none ∧
        (∀ h, t.isMarked h = false) ∧
        (∀ h e, s.entry? h = some e → e.marked = true → e.chain ≠ [] → h ∈ t.park.releaseQueue) ∧
        (t.event .cutoverAbort).flag = true ∧ t.count .cutoverAborts = min (s.count .cutoverAborts + 1) 4294967295) ∧
    ((s.role.phase = .transfer ∨ s.role.phase = .settle) → s.usable s.role.active.other = false →
      ∃ t, exec (.linkDown p) s = .next t ∧ t.role.active = s.role.active ∧ t.role.epoch = s.role.epoch ∧
        t.role.phase = .none ∧ t.role.dark = true ∧ t.role.lateWindow = .stopped ∧ t.role.cutLimit = .stopped ∧
        t.role.holdDown = s.role.holdDown ∧ t.mirror.target = none ∧ t.park.releaseQueue = [] ∧
        (∀ h e l, s.entry? h = some e → e.live? = some l → ∃ l', (t.entry? h).bind Entry.live? = some l' ∧
          l'.marked = false ∧ l'.chain = [] ∧ l'.chainAge = l.chainAge) ∧
        t.count .parkDiscarded = (let n := (s.table.entries.map (fun x => x.2.chain.length)).sum
          if n = 0 then s.count .parkDiscarded else min (s.count .parkDiscarded + n) 4294967295) ∧
        (t.event .dark).flag = true ∧ (t.event .cutoverAbort).flag = true ∧
        t.count .cutoverAborts = min (s.count .cutoverAborts + 1) 4294967295))

/-- R146, R150, R151, R193, R195: a SWITCHOVER that is permitted and says whether it is forced is judged in order. BUSY and
NOT_READY change nothing but the queue and the REPLY; OK begins a planned cutover: kind, reason, source, destination and
an empty cutover record are set, the phase becomes QUIESCE and the quiesce timer runs, while the active role stays. The pre-push
moves each LIVE entry queued in NORMAL to URGENT and queues there what a LIVE entry without a need or a record owes, as its table
gives; unprotected entries stay. The OK REPLY is the last frame of its queue, unless that queue is full. -/
def Obligations.SwitchoverIsJudgedInOrder : Prop :=
  ∀ (s : State) (q : Request) (rest : List Request) (b : Byte) (more : List Byte), s.heads q rest 0x10 →
    s.permitsWrite q.port = true → q.args = b :: more →
    (s.role.phase ≠ .none → exec .switchover s = .next (s.answered q rest .busy [])) ∧
    (s.role.phase = .none → (s.usable s.role.active.other = false ∨ (s.ready = false ∧ b = 0#8)) →
      exec .switchover s = .next (s.answered q rest .notReady [])) ∧
    (s.role.phase = .none → s.usable s.role.active.other = true → (s.ready = true ∨ b ≠ 0#8) →
      ∃ t, exec .switchover s = .next t ∧ t.requests = rest ∧ t.repliesLast q .ok [] ∧
        t.role = { s.role with
          kind := some .planned, reason := some .switchover, source := some s.role.active
          dest := some s.role.active.other, phase := .quiesce, dwell := .stopped
          quiesce := if s.param .quiesceTimeout = 0 then .stopped else .running (s.param .quiesceTimeout)
          record := { markedAtTransfer := 0, reMarked := 0, confirmed := 0, released := 0, parked := 0, dropped := 0 } } ∧
        (t.event .cutoverStart).flag = true ∧ t.health = s.health ∧ t.mirror.target = s.mirror.target ∧
        (s.tableOk → ∀ h, t.phase h = s.phase h) ∧
        (s.tableOk → ∀ h e d m l, s.entry? h = some e → e.body = .live d m l → (m.lane = none ↔ m.queued = none) →
          let owes := l.unprotected = false ∧ m.lane = none ∧ m.inflight = none ∧ (m.peer ≠ .current ∨ e.anyDrift = true)
          (owes → t.entry? h = some (e.withLive d
            { m with lane := some .urgent, queued := some (if m.peer = .current then .refresh else .declare) } l)) ∧
          (l.unprotected = false → m.lane ≠ none → t.entry? h = some (e.withLive d { m with lane := some .urgent } l)) ∧
          (¬ owes → (l.unprotected = true ∨ m.lane = none) → t.entry? h = some e)) ∧
        (s.tableOk → ∀ h e d m bs, s.entry? h = some e → e.body = .retiring d m bs → m.queued ≠ none →
          t.laneOf h = (if m.lane = some .normal ∧ bs ≠ [] then some .urgent else m.lane) ∧ t.queuedOf h = m.queued))

/-- R139, R142: at the expiry of the startup wait it is over. In phase NONE, with the active firewall not UP and the other
UP, the active role moves to the other; in any other case nothing further changes. Where the wait is over already it does not
expire, and the command leaves the state (log entry 8). -/
def Obligations.StartupWaitEndsInTheStartupTest : Prop :=
  ∀ s : State,
    (s.role.startup = .over → exec .startupWaitExpiry s = .next s) ∧
    (s.role.startup ≠ .over →
      (s.role.phase = .none → (s.fw s.role.active).state ≠ .up → (s.fw s.role.active.other).state = .up →
        ∃ t, exec .startupWaitExpiry s = .next t ∧ s.transferredTo t s.role.active.other ∧
          (s.count .cutoversUnplanned < 4294967295 → s.count .cutoversUnplanned < t.count .cutoversUnplanned)) ∧
      ((s.role.phase ≠ .none ∨ (s.fw s.role.active).state = .up ∨ (s.fw s.role.active.other).state ≠ .up) →
        exec .startupWaitExpiry s = .next { s with role := { s.role with startup := .over } }))

/-- R110, R139, R147, R148, R149, R157: the hold-down stops and the fitness dwell becomes complete at their expiry, and each is
followed by a preemption test: with a ready standby that may preempt, a planned cutover begins; otherwise nothing further
changes. An expiry of the late window stops it, and one of the restart hold makes it expired, and nothing else changes. A timer
that does not run, a pulse timer among them, does not expire: the command leaves the state (log entry 8). -/
def Obligations.RoleTimersExpire : Prop :=
  (∀ s : State,
     let preferred := s.param .preemptPreferred = 1 ∧ s.param .preferred = Fw.code s.role.active.other
     (∀ n, s.role.holdDown = .running n →
       (s.role.phase = .none → s.ready = true → (preferred ∨ s.role.dwell = .complete) →
         ∃ t, exec .holdDownExpiry s = .next t ∧ t.role.holdDown = .stopped ∧ t.role.phase = .quiesce ∧
           t.role.kind = some .planned ∧ t.role.active = s.role.active ∧
           (preferred → t.role.reason = some .preferred) ∧ (¬ preferred → t.role.reason = some .fitness)) ∧
       ((s.role.phase ≠ .none ∨ s.ready = false ∨ (¬ preferred ∧ s.role.dwell ≠ .complete)) →
         exec .holdDownExpiry s = .next { s with role := { s.role with holdDown := .stopped } })) ∧
     (∀ n, s.role.dwell = .running n →
       (s.role.phase = .none → s.ready = true → s.role.holdDown = .stopped →
         ∃ t, exec .fitnessDwellExpiry s = .next t ∧ t.role.phase = .quiesce ∧ t.role.kind = some .planned ∧
           t.role.active = s.role.active ∧ t.role.dwell = .stopped) ∧
       ((s.role.phase ≠ .none ∨ s.ready = false ∨ s.role.holdDown ≠ .stopped) →
         exec .fitnessDwellExpiry s = .next { s with role := { s.role with dwell := .complete } })) ∧
     (s.role.holdDown = .stopped → exec .holdDownExpiry s = .next s) ∧
     (s.role.dwell = .stopped ∨ s.role.dwell = .complete → exec .fitnessDwellExpiry s = .next s)) ∧
  (∀ s : State,
     (s.role.lateWindow ≠ .stopped →
       exec .lateWindowExpiry s = .next { s with role := { s.role with lateWindow := .stopped } }) ∧
     (s.role.lateWindow = .stopped → exec .lateWindowExpiry s = .next s) ∧
     (∀ n, s.mirror.restartHold = .running n →
       exec .restartHoldExpiry s = .next { s with mirror := { s.mirror with restartHold := .expired } }) ∧
     ((∀ n, s.mirror.restartHold ≠ .running n) → exec .restartHoldExpiry s = .next s) ∧
     ∀ f, (s.fw f).pulseTimer = .stopped → exec (.pulseTimerExpiry f) s = .next s)

/-- R139, R155, R159: an expiry of the cutover limit leaves no entry marked and the phase no longer TRANSFER, and stops the
limit; the active role, the epoch and the health records stay. A limit that does not run does not expire, and the command leaves the
state (log entry 8). -/
def Obligations.CutoverLimitClearsEveryMark : Prop :=
  ∀ s : State, s.tableOk →
    (s.role.cutLimit = .stopped → exec .cutoverLimitExpiry s = .next s) ∧
    (s.role.cutLimit ≠ .stopped → ∃ t, exec .cutoverLimitExpiry s = .next t ∧ (∀ h, t.isMarked h = false) ∧
      t.role.phase ≠ .transfer ∧ t.role.cutLimit = .stopped ∧ t.role.active = s.role.active ∧
      t.role.epoch = s.role.epoch ∧ t.health = s.health ∧ t.decl = s.decl)

/-! ## Aging (chapter 1) and the Park Buffer (chapter 8) -/

/-- R7, R22, R23, R24, R25, R27: an expiry of the tentative sweeper raises the idle tag of every TENTATIVE entry at 0 or 1, frees
every one at 2 and leaves every other entry. An expiry of the sweeper of an aging class raises the idle tag of every LIVE entry
of the class that is not marked and has no chain, at 0 or 1, and retires every one at 2; every other LIVE entry and every
TENTATIVE one stays: said at a moment at which no test of R116 or R160 ends the event, since a walk has handles left to examine and
SETTLE a batch outstanding. Each sweeper starts its next period with its parameter's value. -/
def Obligations.SweepsAgeRetireAndFree : Prop :=
  (∀ s : State, s.tableOk →
     ∃ t, exec .tentativeSweepExpiry s = .next t ∧ t.sweepers = { s.sweepers with tentative := s.param .tentativeSweep } ∧
       (∀ h e, s.entry? h = some e → t.entry? h =
         (if e.body = .tentative then (if e.idleTag < 2 then some { e with idleTag := e.idleTag + 1 } else none) else some e)) ∧
       (∀ h, s.entry? h = none → t.entry? h = none) ∧
       t.count .tentativeExpired =
         (let n := (s.table.entries.filter (fun x => x.2.phase == .tentative && decide (2 ≤ x.2.idleTag))).length
          if n = 0 then s.count .tentativeExpired else min (s.count .tentativeExpired + n) 4294967295)) ∧
  (∀ (s : State) (c : Fin 4), s.tableOk → s.unended →
     ∃ t, exec (.classSweepExpiry c) s = .next t ∧
       t.sweepers = { s.sweepers with classes := s.sweepers.classes.set c (s.param (.agingSweep c)) } ∧
       (∀ h e d m l, s.entry? h = some e → e.body = .live d m l →
         ((e.agingClass ≠ c ∨ l.marked = true ∨ l.chain ≠ []) → t.entry? h = some e) ∧
         (e.agingClass = c → l.marked = false → l.chain = [] →
           (e.idleTag < 2 → t.entry? h = some { e with idleTag := e.idleTag + 1 }) ∧
           (2 ≤ e.idleTag → t.phase h = if m.peer = .absent ∧ m.inflight = none then .free else .retiring))) ∧
       ∀ h e, s.entry? h = some e → e.body = .tentative → t.entry? h = some e)

/-- R155, R171, R175: an expiry of the park sweeper raises the chain age of every marked entry with a chain, at 0 or 1; one at
2 has its mark cleared as released unconfirmed, counted in RELEASED_UNCONFIRMED and in the cutover record, and joins the tail of the
Release Queue, in ascending handle order. Every other entry stays. Said, with frames held or without, at a moment at which no test of
R116 or R160 ends the event. -/
def Obligations.ParkSweepAgesOrReleasesChains : Prop :=
  ∀ s : State, s.tableOk → (s.mirror.state = .walking → s.mirror.cursor < 16384) →
    (s.role.phase = .settle → s.park.framesHeld ≠ 0 ∨ s.mirror.slots ≠ []) →
    let due := s.table.entries.filter (fun x =>
      x.2.live?.any (fun l => l.marked && !l.chain.isEmpty && decide (2 ≤ l.chainAge)))
    ∃ t, exec .parkSweepExpiry s = .next t ∧ t.sweepers = { s.sweepers with park := s.param .parkSweep } ∧
      (∀ h e d m l, s.entry? h = some e → e.body = .live d m l → l.marked = true → l.chain ≠ [] →
        (l.chainAge < 2 →
          t.entry? h = some { e with body := .live d m { l with chainAge := l.chainAge + 1 } }) ∧
        (2 ≤ l.chainAge → t.entry? h = some { e with body := .live d m { l with marked := false } })) ∧
      (∀ h e, s.entry? h = some e → (e.marked = false ∨ e.chain = []) → t.entry? h = some e) ∧
      t.park.releaseQueue = s.park.releaseQueue ++ due.map (·.1) ∧ t.role.marked = s.role.marked - due.length ∧
      t.role.record.released = (if due = [] then s.role.record.released
        else min (s.role.record.released + due.length) 65535) ∧
      t.count .releasedUnconfirmed = (if due = [] then s.count .releasedUnconfirmed
        else min (s.count .releasedUnconfirmed + due.length) 4294967295)

/-- R26, R70, R155, R160, R167, R172, R173: a release turn sends the frames of the chain at the head of the Release Queue in their
order, oldest first, toward the firewall active at the turn, and leaves the chain empty with age 0: said of a whole chain of up to
8 frames that all arrived at WAN. A turn in SETTLE that empties the last chain, with no batch outstanding, ends SETTLE: the phase is
NONE, the late window and the cutover limit are stopped, no entry is marked, CUTOVER_END occurs, the active role stays, and the
mirror target is the standby, toward which a walk starts, or none. -/
def Obligations.ReleaseTurnSendsTheChainInOrder : Prop :=
  (∀ (s : State) (h : Nat) (rest : List Nat) (e : Entry) (d : Declared) (m : MirrorPart) (l : LivePart),
    s.quiet → s.park.releaseQueue = h :: rest → s.entry? h = some e → e.body = .live d m l →
    l.chain ≠ [] → l.chain.length ≤ 8 → (∀ x ∈ l.chain, x.port = .wan) →
    (s.port s.role.active.outPort).link = .up → (s.port s.role.active.outPort).tx.length ≤ 56 →
    (s.port s.role.active.inPort).tx.length ≤ 56 →
    ∃ t, exec .releaseTurn s = .next t ∧
      (t.port s.role.active.outPort).tx = (s.port s.role.active.outPort).tx ++ l.chain.map (·.bytes) ∧
      ((t.entry? h).bind Entry.live?).map (fun x => (x.chain, x.chainAge)) = some ([], 0) ∧
      t.park.framesHeld = s.park.framesHeld - l.chain.length ∧ t.park.releaseQueue = rest ∧ s.othersKept t h ∧
      t.count .released = min (s.count .released + l.chain.length) 4294967295 ∧ t.role = s.role) ∧
  (∀ (s : State) (h : Nat) (e : Entry) (d : Declared) (m : MirrorPart) (l : LivePart), s.tableOk →
    s.role.phase = .settle → s.mirror.slots = [] → s.mirror.target = some s.role.active →
    s.park.releaseQueue = [h] → s.entry? h = some e → e.body = .live d m l →
    l.chain ≠ [] → l.chain.length ≤ 8 → s.park.framesHeld = l.chain.length →
    (s.port s.role.active.outPort).tx.length ≤ 56 → (s.port s.role.active.inPort).tx.length ≤ 56 →
    ∃ t, exec .releaseTurn s = .next t ∧ t.role.phase = .none ∧ t.role.lateWindow = .stopped ∧ t.role.cutLimit = .stopped ∧
      (∀ g, t.isMarked g = false) ∧ (t.event .cutoverEnd).flag = true ∧ t.role.active = s.role.active ∧
      t.role.epoch = s.role.epoch ∧ t.role.record = { s.role.record with released := t.role.record.released } ∧
      (s.usable s.role.active.other = true → t.mirror.target = some s.role.active.other ∧ t.mirror.state = .walking) ∧
      (s.usable s.role.active.other = false → t.mirror.target = none ∧ t.mirror.state = .idle))

/-! ## Management requests (chapter 10) -/

/-- R194: a QUERY that reaches its owner joins the tail of the Request Queue with its code, identifier, arguments, arrival
port and source; with 4 requests queued it is dropped and counted in REQ_OVERFLOW. -/
def Obligations.QueryJoinsTheRequestQueue : Prop :=
  ∀ (p : Port) (fr : Frame) (s : State), goodCcf .query fr = true →
    (p = .aIn ∨ p = .bIn ∨ (p = .lan ∧ s.param .lanManagement = 1)) →
    (s.requests.length < 4 → exec (.query p fr) s = .next { s.inc (.framesIn p) with
      requests := s.requests ++ [{
        code := byteAt (readCcf fr).payload 0, id := (readCcf fr).seq, args := (readCcf fr).payload.drop 1
        port := p, source := (readCcf fr).source }] }) ∧
    (4 ≤ s.requests.length → exec (.query p fr) s = .next ((s.inc (.framesIn p)).inc .reqOverflow))

/-- R196, R197: a write from a firewall that is not active, while the firewalls are not both ABSENT, is answered NOT_PERMITTED; a
GET_COUNTERS whose clear flag is set is such a write. A request whose code is none of the fifteen is answered UNKNOWN, whoever
sent it. Neither changes anything but the Request Queue and the REPLY. -/
def Obligations.RefusedRequestsChangeNothing : Prop :=
  (∀ (s : State) (q : Request) (rest : List Request) (c : Instr) (code : Byte) (f : Fw),
     (c, code) ∈ [(Instr.setParam, 2#8), (.clearEvents, 9#8), (.setPrefix, 10#8), (.switchover, 16#8), (.resync, 17#8),
       (.purge, 18#8), (.tableReset, 19#8), (.getCounters, 7#8)] →
     s.heads q rest code → q.port = f.inPort → s.role.active ≠ f →
     ((s.fw .a).state ≠ .absent ∨ (s.fw .b).state ≠ .absent) → (code = 7#8 → byteAt q.args 0 ≠ 0#8) →
     exec c s = .next (s.answered q rest .notPermitted [])) ∧
  (∀ (s : State) (q : Request) (rest : List Request), s.heads q rest q.code →
     (q.code = 0#8 ∨ (12 ≤ q.code.toNat ∧ q.code.toNat ≤ 15) ∨ 20 ≤ q.code.toNat) →
     exec .unknownRequest s = .next (s.answered q rest .unknown []))

/-- R196, R198, R199, R200: GET_PARAM answers with the id and the value the parameter holds, in 4 bytes, the unit address in 6; an
id that names no parameter is UNKNOWN. SET_PARAM of a numeric value stores it brought into its range, CLAMPED when that changes
it; of a value outside an enumeration, and of a group unit address, it is BAD_ARG and stores nothing; the hash seed is BUSY while
any entry is in use. One parameter and no other changes, and no other state. -/
def Obligations.ParametersAreReadAndWritten : Prop :=
  (∀ (s : State) (q : Request) (rest : List Request) (b : Byte) (more : List Byte), s.heads q rest 1 →
     s.permitsRead q.port = true → q.args = b :: more →
     (∀ i : Fin 37, b.toNat = i.val + 1 →
       exec .getParam s = .next (s.answered q rest .ok (be1 (i.val + 1) ++ beBytes (if i = 0 then 6 else 4) s.params[i]))) ∧
     ((b.toNat = 0 ∨ 38 ≤ b.toNat) → exec .getParam s = .next (s.answered q rest .unknown []))) ∧
  (∀ (s : State) (q : Request) (rest : List Request) (i : Fin 37) (v : Nat) (more : List Byte), s.heads q rest 2 →
     s.permitsWrite q.port = true → q.args = be1 (i.val + 1) ++ beBytes (if i = 0 then 6 else 4) v ++ more →
     v < 256 ^ (if i = 0 then 6 else 4) →
     let stores := fun (w : Nat) (st : Status) =>
       exec .setParam s = .next ({ s with requests := rest, params := s.params.set i w }.handTx q.port
         (({ s with params := s.params.set i w } : State).replyFrame q st
           (be1 (i.val + 1) ++ beBytes (if i = 0 then 6 else 4) w)))
     (∀ lo hi, paramKind i = .numeric lo hi → lo ≤ v → v ≤ hi → stores v .ok) ∧
     (∀ lo hi, paramKind i = .numeric lo hi → lo ≤ hi → v < lo → stores lo .clamped) ∧
     (∀ lo hi, paramKind i = .numeric lo hi → lo ≤ hi → hi < v → stores hi .clamped) ∧
     (∀ lo hi, paramKind i = .enumerated lo hi → lo ≤ v → v ≤ hi → stores v .ok) ∧
     (∀ lo hi, paramKind i = .enumerated lo hi → (v < lo ∨ hi < v) →
       exec .setParam s = .next (s.answered q rest .badArg [])) ∧
     (∀ n, paramKind i = .mask n → stores (v &&& n) (if v &&& n = v then .ok else .clamped)) ∧
     (paramKind i = .address → isGroup (BitVec.ofNat 48 v) = true →
       exec .setParam s = .next (s.answered q rest .badArg [])) ∧
     (paramKind i = .address → isGroup (BitVec.ofNat 48 v) = false → stores v .ok) ∧
     (paramKind i = .seed → s.table.occupancy ≠ 0 → exec .setParam s = .next (s.answered q rest .busy [])) ∧
     (paramKind i = .seed → s.table.occupancy = 0 → v ≤ 65535 → stores v .ok) ∧
     (paramKind i = .seed → s.table.occupancy = 0 → 65535 < v → stores 65535 .clamped))

/-- R6, R181, R201, R204, R215: GET_STATUS answers with the state it reports, field by field (the orders inside a group are the model's
reading, log entry 20), and each level flag whose occupancy is below its level is then cleared; nothing else changes. GET_COUNTERS
answers with the fifty-one counters in order, 4 bytes each; with its clear flag set, from a sender that may write, every counter is
then 0, and with it clear none changes. -/
def Obligations.StatusAndCountersAreReported : Prop :=
  (∀ (s : State) (q : Request) (rest : List Request), s.heads q rest 3 → s.permitsRead q.port = true →
     let r := s.role
     let timer := fun x : Timer => if x = .stopped then be1 0 else be1 1
     let firewall := fun h : HealthRecord =>
       [be1 h.state.code, (match h.state with | .down why => be1 why.code | _ => be1 0), be1 h.misses, be1 h.good,
        be1 h.fitness, be1 h.claimed.code, be2 h.lastSeq.toNat, beMac h.learned].flatten
     let bytes :=
       [be1 (Fw.code r.active), be1 (if s.usable r.active.other then Fw.code r.active.other else 0), be1 r.phase.code,
        be1 (cutKindCode r.kind), be1 (cutReasonCode r.reason), be1 (fwCode r.source), be1 (fwCode r.dest),
        be2 r.epoch.toNat, beFlag r.dark,
        (if r.startup = .over then be1 2 else be1 1), timer r.holdDown,
        (if r.dwell = .stopped then be1 0 else if r.dwell = .complete then be1 2 else be1 1),
        timer r.quiesce, timer r.lateWindow, timer r.cutLimit, be2 r.marked,
        be2 r.record.markedAtTransfer, be2 r.record.reMarked, be2 r.record.confirmed, be2 r.record.released,
        be4 r.record.parked, be4 r.record.dropped,
        firewall (s.fw .a), firewall (s.fw .b),
        be1 (fwCode s.mirror.target), be1 s.mirror.state.code, be2 s.mirror.cursor, be2 s.mirror.walkPending,
        be1 s.mirror.slots.length, be2 s.mirror.urgent.length, be2 s.mirror.normal.length, be1 s.mirror.timeouts,
        be2 s.table.occupancy, be2 s.table.tentative, beFlag (s.table.levels.get 0), beFlag (s.table.levels.get 1),
        beFlag (s.table.levels.get 2),
        be2 s.park.cellsInUse, be2 s.park.framesHeld, be2 s.park.releaseQueue.length, beFlag (s.park.levels.get 0),
        beFlag (s.park.levels.get 1), beFlag (s.park.levels.get 2),
        be1 (s.port .lan).link.code, be1 (s.port .wan).link.code, be1 (s.port .aIn).link.code, be1 (s.port .aOut).link.code,
        be1 (s.port .bIn).link.code, be1 (s.port .bOut).link.code].flatten
     ∃ t, exec .getStatus s = .next t ∧ t.ports = (s.answered q rest .ok bytes).ports ∧
       t = { s with ports := t.ports, requests := rest, table := { s.table with levels := t.table.levels },
                    park := { s.park with levels := t.park.levels } } ∧
       (∀ n, t.table.levels.get n = (s.table.levels.get n &&
         decide (s.param (.tableLevel n) * 16384 ≤ s.table.occupancy * 100))) ∧
       (∀ n, t.park.levels.get n = (s.park.levels.get n &&
         decide (s.param (.parkLevel n) * 4096 ≤ s.park.cellsInUse * 100)))) ∧
  (∀ (s : State) (q : Request) (rest : List Request) (b : Byte) (more : List Byte), s.heads q rest 7 → q.args = b :: more →
     (∀ c, s.count c ≤ 4294967295) →
     let bytes := (s.counters.toList.map (beBytes 4)).flatten
     bytes.length = 204 ∧
     (b = 0#8 → s.permitsRead q.port = true → exec .getCounters s = .next (s.answered q rest .ok bytes)) ∧
     (b ≠ 0#8 → s.permitsWrite q.port = true → exec .getCounters s =
       .next { s.answered q rest .ok bytes with counters := Vector.replicate 51 0 }))

/-- R204, R210, R213: GET_EVENTS answers with the flags, the notice enable set and the occurrence counts and changes nothing;
CLEAR_EVENTS clears exactly the flags, and their counts, whose bits the mask sets, and answers with what is left. -/
def Obligations.EventsAreReadAndCleared : Prop :=
  ∀ (s : State) (q : Request) (rest : List Request),
    (s.heads q rest 8 → s.permitsRead q.port = true → ∃ bs, bs.length = 36 ∧
      exec .getEvents s = .next (s.answered q rest .ok bs) ∧
      (∀ ev : EventId, (beNat (bs.take 2)).testBit ev.index.val = (s.event ev).flag) ∧
      (s.param .noticeEnable ≤ 65535 → beNat ((bs.drop 2).take 2) = s.param .noticeEnable) ∧
      ∀ ev : EventId, (s.event ev).count ≤ 65535 → beNat ((bs.drop (4 + 2 * ev.index.val)).take 2) = (s.event ev).count) ∧
    (∀ b0 b1 more, s.heads q rest 9 → s.permitsWrite q.port = true → q.args = b0 :: b1 :: more →
      ∃ t, exec .clearEvents s = .next t ∧ t = { s with ports := t.ports, requests := rest, events := t.events } ∧
        (∀ ev : EventId, t.event ev =
          if (b0.toNat * 256 + b1.toNat).testBit ev.index.val then { flag := false, count := 0 } else s.event ev) ∧
        ∃ bs, bs.length = 2 ∧ t.ports = (s.answered q rest .ok bs).ports ∧
          ∀ ev : EventId, (beNat bs).testBit ev.index.val = (t.event ev).flag)

/-- R78, R205: SET_PREFIX writes one row of the Prefix Class Table, of either family, and leaves the others, CLAMPED when it brings
the length down to the family's, 32 or 128, BAD_ARG with no change for a row, valid flag, family or class that is none and for
prefix bytes shorter than the family needs, 4 or 16; GET_PREFIX reads one row. The REPLY carries the row with its number; that
SET_PREFIX's does is the model's choice (log entry 33). -/
def Obligations.PrefixRowsAreWrittenAndRead : Prop :=
  ∀ (s : State) (q : Request) (rest : List Request) (n : Fin 32),
    (∀ (valid : Bool) (fam : Family) (len : Byte) (cls : FrameClass) (a : IpAddr) (more : List Byte), s.heads q rest 10 →
      s.permitsWrite q.port = true → (fam = .v4 → a.toNat < 2 ^ 32) →
      let code : Byte := match fam with | .v4 => 4#8 | .v6 => 6#8
      let size := match fam with | .v4 => 4 | .v6 => 16
      let most := match fam with | .v4 => 32 | .v6 => 128
      q.args = [BitVec.ofNat 8 n.val, (if valid then 1#8 else 0#8), code, len, BitVec.ofNat 8 cls.code] ++
        beBytes size a.toNat ++ more →
      exec .setPrefix s = .next { s.answered q rest (if len.toNat ≤ most then .ok else .clamped)
          ([BitVec.ofNat 8 n.val, (if valid then 1#8 else 0#8), code] ++ be1 (min len.toNat most) ++
            be1 cls.code ++ beBytes size a.toNat) with
        prefixes := s.prefixes.set n
          { valid := valid, family := fam, addr := a, length := min len.toNat most, cls := cls } }) ∧
    (s.heads q rest 10 → s.permitsWrite q.port = true → 5 ≤ q.args.length →
      (32 ≤ (byteAt q.args 0).toNat ∨ 2 ≤ (byteAt q.args 1).toNat ∨ (byteAt q.args 2 ≠ 4#8 ∧ byteAt q.args 2 ≠ 6#8) ∨
        4 ≤ (byteAt q.args 4).toNat ∨ (byteAt q.args 2 = 4#8 ∧ q.args.length < 5 + 4) ∨
        (byteAt q.args 2 = 6#8 ∧ q.args.length < 5 + 16)) →
      exec .setPrefix s = .next (s.answered q rest .badArg [])) ∧
    (∀ more, s.heads q rest 11 → s.permitsRead q.port = true → q.args = BitVec.ofNat 8 n.val :: more →
      exec .getPrefix s = .next (s.answered q rest .ok (be1 n.val ++ beFlag s.prefixes[n].valid ++
        be1 s.prefixes[n].family.code ++ be1 s.prefixes[n].length ++ be1 s.prefixes[n].cls.code ++
        beBytes s.prefixes[n].family.addrBytes s.prefixes[n].addr.toNat)))

/-- R1, R16, R189, R202: GET_ENTRY of a FREE handle answers with the handle and the phase FREE; of one in use with its handle, its
phase and every field of R1 in order, each behind its presence byte, then the Park Buffer's part (the layout is the model's reading
of R189, log entry 19); of no handle it is BAD_ARG. FIND_ENTRY takes the TENTATIVE or LIVE holder of the key before a RETIRING one
and answers with a set found byte and what GET_ENTRY of that handle answers at that moment; with a clear found byte when no entry
holds the key, and BAD_ARG for arguments that are no key. Only the count of free values taken may move: the value of an edge that is
not valid is free (log entry 7). -/
def Obligations.EntriesAreReported : Prop :=
  (∀ (s : State) (q : Request) (rest : List Request) (b0 b1 : Byte) (more : List Byte), s.heads q rest 4 →
     s.permitsRead q.port = true → q.args = b0 :: b1 :: more →
     let h := b0.toNat * 256 + b1.toNat
     (h < 16384 → s.entry? h = none → exec .getEntry s = .next (s.answered q rest .ok [b0, b1, 0#8])) ∧
     (∀ e, h < 16384 → s.entry? h = some e → ∃ tcp edges n,
       let field := fun x : Option (List Byte) => match x with | some bs => [1#8] ++ bs | none => [0#8]
       exec .getEntry s = .next { s.answered q rest .ok ([b0, b1] ++ be1 e.phase.code ++
         ([field (some (be1 e.family.code)), field (some (be1 (e.proto.code e.family))),
           field (some (tupleBytes e.family e.outside)), field (e.declared?.map (fun d => tupleBytes e.family d.inside)),
           field (some (if e.initiator = .rem then [1#8] else [0#8])), field (some (be1 e.agingClass.val)),
           field (some (be1 e.idleTag)),
           field (e.declared?.map (fun d => be1 (Fw.code d.declaredBy))), field (e.declared?.map (fun d => be1 d.fwState)),
           field (e.declared?.map (fun d => be2 d.policy.toNat)),
           field (e.declared?.map (fun d => be2 d.blob.length ++ d.blob)),
           tcp, edges,
           field (e.mirror?.map (fun m => be1 m.peer.code)), field (e.mirror?.map (fun m => be1 (laneCode m.lane))),
           field (e.mirror?.map (fun m => be1 (queuedCode m.queued))),
           field (match e.body with
             | .live _ m _ => some (beFlag m.walk)
             | .retiring _ m _ => if m.walk then some [1#8] else none
             | .tentative => none),
           field ((e.mirror?.bind (·.inflight)).map (fun i => be2 i.serial.toNat ++ be1 i.note.code)),
           field (e.live?.map (fun l => be1 l.waits)),
           field (match e.body with
             | .retiring _ _ bs => some (be1 bs.length ++ (bs.map be2).flatten)
             | _ => none),
           field (e.live?.map (fun l => beFlag l.unprotected)), field (e.live?.map (fun l => beFlag l.marked)),
           field (e.live?.map (fun l => be1 l.chain.length ++ be1 l.chainAge ++ beFlag (s.park.releaseQueue.contains h)))]
           : List (List Byte)).flatten) with freeReads := n } ∧
       (e.tcp = none → tcp = [0#8]) ∧
       (∀ x, e.tcp = some x → ∃ es, tcp = [1#8] ++ es ++ be1 x.scaleOut ++ be1 x.scaleIn ++ beFlag x.scaleKnown ++
         be1 x.anomalies ∧ edgesShown [x.out.hiSeq, x.out.hiAck, x.out.maxWin, x.inn.hiSeq, x.inn.hiAck, x.inn.maxWin] es) ∧
       (e.mirror?.bind (·.edges) = none → edges = [0#8]) ∧
       (∀ x, e.mirror?.bind (·.edges) = some x → ∃ es, edges = [1#8] ++ es ∧
         edgesShown [x.out.hiSeq, x.out.hiAck, x.inn.hiSeq, x.inn.hiAck] es) ∧
       (e.tcp = none → e.mirror?.bind (·.edges) = none → n = s.freeReads)) ∧
     (16384 ≤ h → exec .getEntry s = .next (s.answered q rest .badArg []))) ∧
  (∀ (s : State) (q : Request) (rest : List Request), s.heads q rest 5 → s.permitsRead q.port = true →
     (findKey q.args = none → exec .findEntry s = .next (s.answered q rest .badArg [])) ∧
     ∀ k, findKey q.args = some k →
       (∀ h, (s.lookup k = some h ∨ (s.lookup k = none ∧ s.holderIn k .retiring = some h)) → ∃ bs n,
         exec .findEntry s = .next { s.answered q rest .ok ([1#8] ++ bs) with freeReads := n } ∧
         ∀ (u : State) (q' : Request) (rest' : List Request) (b0 b1 : Byte) (more : List Byte),
           u = { s with requests := u.requests } → u.heads q' rest' 4 → u.permitsRead q'.port = true →
           q'.args = b0 :: b1 :: more → h = b0.toNat * 256 + b1.toNat → h < 16384 →
           exec .getEntry u = .next { u.answered q' rest' .ok bs with freeReads := n }) ∧
       (s.lookup k = none → s.holderIn k .retiring = none → exec .findEntry s = .next (s.answered q rest .ok [0#8])))

/-- R203: LIST answers with at most 16 handles, rising, from the cursor on and below the next cursor, that pass all four filters,
every passing handle below the next cursor among them; nothing else changes. A cursor past the last handle is BAD_ARG. -/
def Obligations.ListScansTheTable : Prop :=
  ∀ (s : State) (q : Request) (rest : List Request), s.heads q rest 6 → s.permitsRead q.port = true → 6 ≤ q.args.length →
    let cursor := (word16At q.args 0).toNat
    let f := readFilter q.args
    (cursor < 16384 → f.ok = true → ∃ (hs : List Nat) (next : Nat), exec .list s =
        .next (s.answered q rest .ok (be1 hs.length ++ (hs.map be2).flatten ++ be2 next)) ∧
      hs.length ≤ 16 ∧ hs.Pairwise (· < ·) ∧ (∀ h ∈ hs, cursor ≤ h ∧ h < 16384 ∧ h < next ∧ s.passes f h = true) ∧
      (next = 65535 ∨ (next < 16384 ∧ hs.length = 16)) ∧
      ∀ h, cursor ≤ h → h < 16384 → h < next → s.passes f h = true → h ∈ hs) ∧
    ((16384 ≤ cursor ∨ f.ok = false) → exec .list s = .next (s.answered q rest .badArg []))

/-- R87, R111, R112, R113, R206: RESYNC outside phase NONE is BUSY and with no target NOT_READY, changing nothing; otherwise a
walk starts toward the target: lanes, cursor and counts begin again, the BEGIN-WALK batch is the one outstanding, no entry is
RETIRING, and every LIVE entry is ABSENT at the target with nothing queued or inflight. The OK REPLY is the last frame of its queue,
unless that queue is full. -/
def Obligations.ResyncStartsAWalk : Prop :=
  ∀ (s : State) (q : Request) (rest : List Request), s.heads q rest 17 → s.permitsWrite q.port = true → s.tableOk →
    (s.role.phase ≠ .none → exec .resync s = .next (s.answered q rest .busy [])) ∧
    (s.role.phase = .none → s.mirror.target = none → exec .resync s = .next (s.answered q rest .notReady [])) ∧
    (∀ f, s.role.phase = .none → s.mirror.target = some f → ∃ t, exec .resync s = .next t ∧ t.requests = rest ∧
      t.repliesLast q .ok [] ∧
      t.mirror = { target := some f, state := .walking, urgent := [], normal := []
                   slots := [{ serial := s.mirror.nextSerial, age := 0, begin := true, records := [] }]
                   nextSerial := s.mirror.nextSerial + 1, timeouts := 0, cursor := 0, walkPending := 0, walkQueued := 0
                   beginPending := true, restartHold := .stopped } ∧
      (∀ h, t.phase h ≠ .retiring) ∧
      (∀ h m, (t.entry? h).bind Entry.mirror? = some m →
        m.peer = .absent ∧ m.queued = none ∧ m.lane = none ∧ m.inflight = none ∧ m.walk = false) ∧
      t.role = s.role ∧ t.health = s.health ∧ t.count .walks = min (s.count .walks + 1) 4294967295)

/-- R7, R8, R22, R207: PURGE of a LIVE entry the target cannot hold, or of a TENTATIVE one, frees it; of a LIVE entry the target
may hold, marked or not, makes it RETIRING; of a FREE or RETIRING one changes nothing: said at a moment at which no test of R160 ends
the event, the last mark of a TRANSFER staying out. Whatever the moment, the REPLY is OK with the phase that the PURGE leaves, and is
the last frame of its queue, unless that queue is full. A handle past the last is BAD_ARG. -/
def Obligations.PurgeRetiresAnEntry : Prop :=
  ∀ (s : State) (q : Request) (rest : List Request) (b0 b1 : Byte) (more : List Byte), s.heads q rest 18 →
    s.permitsWrite q.port = true → q.args = b0 :: b1 :: more →
    let h := b0.toNat * 256 + b1.toNat
    (16384 ≤ h → exec .purge s = .next (s.answered q rest .badArg [])) ∧
    (h < 16384 → ∃ t, exec .purge s = .next t ∧ t.requests = rest ∧ t.repliesLast q .ok (be1 (t.phase h).code)) ∧
    (s.tableOk → s.quiet →
      (h < 16384 → s.phase h = .free → exec .purge s = .next (s.answered q rest .ok [0#8])) ∧
      (h < 16384 → s.phase h = .retiring → exec .purge s = .next (s.answered q rest .ok [3#8])) ∧
      (h < 16384 → s.phase h = .tentative → ∃ t, exec .purge s = .next t ∧ t.entry? h = none ∧ t.requests = rest ∧
        s.othersKept t h ∧ t.table.occupancy = s.table.occupancy - 1) ∧
      (∀ e d m l, h < 16384 → s.entry? h = some e → e.body = .live d m l →
        (l.marked = true → s.role.phase = .transfer → s.role.marked ≠ 1 ∧ s.role.marked ≠ 0) → ∃ t, exec .purge s = .next t ∧
        t.requests = rest ∧ t.phase h = (if m.peer = .absent ∧ m.inflight = none then .free else .retiring) ∧
        t.role.marked = s.role.marked - (if l.marked then 1 else 0)))

/-- R29, R119, R208: TABLE_RESET outside phase NONE is BUSY and changes nothing; in phase NONE it frees every entry, empties
every slot, the Park Buffer, the lanes and the batches, and starts a walk when there is a target (counted in WALKS: the model's
reading, log entry 34). Parameters, prefix rows, level flags, sequence records, health, roles and sweepers stay. -/
def Obligations.TableResetForgetsEverySession : Prop :=
  ∀ (s : State) (q : Request) (rest : List Request), s.heads q rest 19 → s.permitsWrite q.port = true →
    (s.role.phase ≠ .none → exec .tableReset s = .next (s.answered q rest .busy [])) ∧
    (s.role.phase = .none → ∃ t, exec .tableReset s = .next t ∧ t.requests = rest ∧
      t.table = { entries := [], slots := [], occupancy := 0, tentative := 0, levels := s.table.levels } ∧
      t.park = { cellsInUse := 0, framesHeld := 0, releaseQueue := [], levels := s.park.levels } ∧
      t.mirror.urgent = [] ∧ t.mirror.normal = [] ∧ t.mirror.target = s.mirror.target ∧ t.mirror.walkPending = 0 ∧
      (s.mirror.target = none → t.mirror.slots = [] ∧ t.mirror.state = .idle) ∧
      (s.mirror.target ≠ none → t.mirror.slots.length = 1 ∧ t.mirror.state = .walking ∧
        t.count .walks = min (s.count .walks + 1) 4294967295) ∧
      t.count .entriesFreed = min (s.count .entriesFreed + s.table.entries.length) 4294967295 ∧
      t.role = s.role ∧ t.health = s.health ∧ t.decl = s.decl ∧ t.params = s.params ∧ t.prefixes = s.prefixes ∧
      t.sweepers = s.sweepers ∧ t.events = s.events)

/-! ## Events (chapter 11) -/

/-- R6, R181, R210, R211, R214: an occurrence of an event sets its flag, with count 1 from clear and else one more up to 65,535, and
touches no other event. From clear, with the event enabled, a NOTICE is handed to each port of the target set, LAN's to the broadcast
address and only with LAN management on; otherwise no frame is. A comparison of the table occupancy, or of the cells in use, with its
three levels sets the flag of each level reached and raises TABLE_LEVEL, or PARK_LEVEL, once for each flag that was clear; where just
one was, that occurrence names the level and the occupancy (where several were, the order is the model's choice, log entry 30). -/
def Obligations.OccurrenceLatchesAndNotifiesOnce : Prop :=
  (∀ (s : State) (ev : EventId) (ps : List Byte),
    (s.raise ev ps).event ev = { flag := true, count := if (s.event ev).flag then min ((s.event ev).count + 1) 65535 else 1 } ∧
    (∀ d, d ≠ ev → (s.raise ev ps).event d = s.event d) ∧
    (((s.event ev).flag = true ∨ (s.param .noticeEnable).testBit ev.index.val = false) → (s.raise ev ps).ports = s.ports) ∧
    ((s.event ev).flag = false → (s.param .noticeEnable).testBit ev.index.val = true →
      let notice := fun dst : Mac =>
        ccfFrame dst s.unitAddress .notice 0#8 0#8 1#16 (be1 (ev.index.val + 1) ++ be1 ps.length ++ ps)
      (∀ f : Fw, (s.param .noticeTargets).testBit (Fw.code f - 1) = true → s.hasRoom f.inPort 1 →
        ((s.raise ev ps).port f.inPort).tx = (s.port f.inPort).tx ++ [notice (s.fw f).learned]) ∧
      ((s.param .noticeTargets).testBit 2 = true → s.param .lanManagement = 1 → s.hasRoom .lan 1 →
        ((s.raise ev ps).port .lan).tx = (s.port .lan).tx ++ [notice 0xFFFFFFFFFFFF#48]) ∧
      (((s.param .noticeTargets).testBit 2 = false ∨ s.param .lanManagement ≠ 1) →
        (s.raise ev ps).port .lan = s.port .lan))) ∧
  (∀ s : State,
    let new := fun n : Fin 3 => !s.table.levels.get n && decide (s.param (.tableLevel n) * 16384 ≤ s.table.occupancy * 100)
    let t := s.compareTable
    t = { s with ports := t.ports, counters := t.counters, events := t.events,
                 table := { s.table with levels := t.table.levels } } ∧
    (∀ n, t.table.levels.get n = (s.table.levels.get n || new n)) ∧
    t.event .tableLevel = (([0, 1, 2] : List (Fin 3)).filter new).foldl (fun e _ => e.next) (s.event .tableLevel) ∧
    ((∀ n, new n = false) → t = s) ∧
    (∀ n, new n = true → (∀ k, k ≠ n → new k = false) →
      t = { s with table := { s.table with levels := s.table.levels.set n true } }.raise .tableLevel
        (be1 (n.val + 1) ++ be2 s.table.occupancy))) ∧
  (∀ s : State,
    let new := fun n : Fin 3 => !s.park.levels.get n && decide (s.param (.parkLevel n) * 4096 ≤ s.park.cellsInUse * 100)
    let t := s.comparePark
    t = { s with ports := t.ports, counters := t.counters, events := t.events,
                 park := { s.park with levels := t.park.levels } } ∧
    (∀ n, t.park.levels.get n = (s.park.levels.get n || new n)) ∧
    t.event .parkLevel = (([0, 1, 2] : List (Fin 3)).filter new).foldl (fun e _ => e.next) (s.event .parkLevel) ∧
    ((∀ n, new n = false) → t = s) ∧
    (∀ n, new n = true → (∀ k, k ≠ n → new k = false) →
      t = { s with park := { s.park with levels := s.park.levels.set n true } }.raise .parkLevel
        (be1 (n.val + 1) ++ be2 s.park.cellsInUse)))
end

