-- ==== Sys2Proof/Laws/Maps.lean ====
section
/-! SUPPORT. What reading gives after writing, for the tables by port, by firewall and by number, for the counters and
for the bytes of a number. -/

namespace Sys2Proof.Laws

open Sys2Proof Sys2Proof.Machine

variable {α : Type}

/-! ## By port and by firewall -/

@[simp] theorem perPort_get_set (m : PerPort α) (p q : Port) (x : α) :
    (m.set p x).get q = if q = p then x else m.get q := by
  cases p <;> cases q <;> rfl

@[simp] theorem perFw_get_set (m : PerFw α) (p q : Fw) (x : α) :
    (m.set p x).get q = if q = p then x else m.get q := by
  cases p <;> cases q <;> rfl

@[simp] theorem port_setPort (s : State) (p q : Port) (x : PortState) :
    (s.setPort p x).port q = if q = p then x else s.port q := by
  simp [State.port, State.setPort]

@[simp] theorem fw_setFw (s : State) (f g : Fw) (h : HealthRecord) :
    (s.setFw f h).fw g = if g = f then h else s.fw g := by
  simp [State.fw, State.setFw]

@[simp] theorem fw_other_other (f : Fw) : f.other.other = f := by cases f <;> rfl

@[simp] theorem fw_other_ne (f : Fw) : f.other ≠ f := by cases f <;> decide

/-! ## Tables by number -/

theorem smap_get_put (m : SMap α) (k n : Nat) (x : α) :
    SMap.get? (SMap.put m k x) n = if n = k then some x else SMap.get? m n := by
  induction m with
  | nil =>
    by_cases h : n = k
    · subst h; simp [SMap.put, SMap.get?]
    · simp [SMap.put, SMap.get?, h, Ne.symm h]
  | cons y t ih =>
    obtain ⟨i, y⟩ := y
    by_cases h : n = k
    · subst h
      simp only [SMap.put]
      split
      · simp [SMap.get?]
      · split
        · simp [SMap.get?]
        · rename_i h1 h2
          simp only [SMap.get?, if_neg (Ne.symm h2), ih, if_true]
    · simp only [SMap.put, if_neg h]
      split
      · simp [SMap.get?, Ne.symm h]
      · split
        · rename_i h1 h2; subst h2; simp [SMap.get?, Ne.symm h]
        · simp only [SMap.get?, ih, if_neg h]

theorem smap_above_le {m : SMap α} {a b : Nat} (hab : a ≤ b) (h : SMap.above m b = true) : SMap.above m a = true := by
  cases m with
  | nil => rfl
  | cons y t => simp only [SMap.above, Bool.and_eq_true, decide_eq_true_eq] at h ⊢; exact ⟨by omega, h.2⟩

theorem smap_get_above {m : SMap α} {b n : Nat} (h : SMap.above m b = true) (hn : n ≤ b) : SMap.get? m n = none := by
  induction m generalizing b with
  | nil => rfl
  | cons y t ih =>
    simp only [SMap.above, Bool.and_eq_true, decide_eq_true_eq] at h
    have : y.1 ≠ n := by omega
    simp only [SMap.get?, this, if_false]
    exact ih h.2 (by omega)

theorem smap_above_put {m : SMap α} {b k : Nat} {x : α} (h : SMap.above m b = true) (hk : b < k) :
    SMap.above (SMap.put m k x) b = true := by
  induction m generalizing b with
  | nil => simp [SMap.put, SMap.above, hk]
  | cons y t ih =>
    simp only [SMap.above, Bool.and_eq_true, decide_eq_true_eq] at h
    simp only [SMap.put]
    split
    · simp only [SMap.above, Bool.and_eq_true, decide_eq_true_eq]; exact ⟨hk, by assumption, h.2⟩
    · split
      · subst_vars; simp only [SMap.above, Bool.and_eq_true, decide_eq_true_eq]; exact h
      · simp only [SMap.above, Bool.and_eq_true, decide_eq_true_eq]; exact ⟨h.1, ih h.2 (by omega)⟩

theorem smap_above_del {m : SMap α} {b : Nat} (k : Nat) (h : SMap.above m b = true) :
    SMap.above (SMap.del m k) b = true := by
  induction m generalizing b with
  | nil => rfl
  | cons y t ih =>
    simp only [SMap.above, Bool.and_eq_true, decide_eq_true_eq] at h
    simp only [SMap.del]
    split
    · exact smap_above_le (by omega) h.2
    · simp only [SMap.above, Bool.and_eq_true, decide_eq_true_eq]; exact ⟨h.1, ih h.2⟩

/-- A write keeps the canonical form. -/
theorem smap_wf_put {m : SMap α} (k : Nat) (x : α) (h : SMap.wf m = true) : SMap.wf (SMap.put m k x) = true := by
  cases m with
  | nil => rfl
  | cons y t =>
    simp only [SMap.wf] at h
    simp only [SMap.put]
    split
    · simp only [SMap.wf, SMap.above, Bool.and_eq_true, decide_eq_true_eq]; exact ⟨by assumption, h⟩
    · split
      · subst_vars; exact h
      · simp only [SMap.wf]; exact smap_above_put h (by omega)

/-- Taking an entry out keeps the canonical form. -/
theorem smap_wf_del {m : SMap α} (k : Nat) (h : SMap.wf m = true) : SMap.wf (SMap.del m k) = true := by
  cases m with
  | nil => rfl
  | cons y t =>
    simp only [SMap.wf] at h
    simp only [SMap.del]
    split
    · cases t with
      | nil => rfl
      | cons z u => simp only [SMap.above, Bool.and_eq_true] at h; exact h.2
    · exact smap_above_del k h

theorem smap_get_del {m : SMap α} (k n : Nat) (h : SMap.wf m = true) :
    SMap.get? (SMap.del m k) n = if n = k then none else SMap.get? m n := by
  induction m with
  | nil => simp [SMap.del, SMap.get?]
  | cons y t ih =>
    obtain ⟨i, y⟩ := y
    simp only [SMap.wf] at h
    simp only [SMap.del]
    split
    · subst_vars
      split
      · subst_vars; exact smap_get_above h (Nat.le_refl _)
      · rename_i hne; simp only [SMap.get?, if_neg (Ne.symm hne)]
    · have ht : SMap.wf t = true := by
        cases t with
        | nil => rfl
        | cons z u => simp only [SMap.above, Bool.and_eq_true] at h; exact h.2
      simp only [SMap.get?, ih ht]
      split <;> split <;> simp_all

/-! ## Counters -/

theorem counter_index_inj {c d : Counter} (h : c.index = d.index) : c = d := by
  cases c <;> cases d <;>
    first
    | rfl
    | (rename_i p q; cases p <;> cases q <;> first | rfl | (exfalso; revert h; decide))
    | (rename_i p; cases p <;> (exfalso; revert h; decide))
    | (exfalso; revert h; decide)

/-- A counter after another, or itself, is advanced. -/
theorem count_add (s : State) (c d : Counter) (n : Nat) :
    (s.add d n).count c = if c = d then min (s.count d + n) Config.counterMax else s.count c := by
  simp only [State.count, State.add, Fin.getElem_fin, Vector.getElem_set]
  by_cases h : c = d
  · simp [h]
  · have : ¬(d.index.val = c.index.val) := fun e => h (counter_index_inj (Fin.ext e).symm)
    simp [h, this]

theorem count_inc (s : State) (c d : Counter) :
    (s.inc d).count c = if c = d then min (s.count d + 1) Config.counterMax else s.count c := count_add s c d 1

/-- An event after one occurrence of another, or itself. -/
theorem event_latch (s : State) (ev d : EventId) :
    (s.latch d).event ev = if ev = d then (s.event d).next else s.event ev := by
  simp only [State.event, State.latch, Fin.getElem_fin, Vector.getElem_set]
  by_cases h : ev = d
  · simp [h]
  · have : ¬(d.index.val = ev.index.val) := by
      intro e; apply h; revert e; cases ev <;> cases d <;> decide
    simp [h, this]

/-! ## Bytes of a number -/

theorem length_beBytes (k n : Nat) : (beBytes k n).length = k := by
  induction k with
  | zero => rfl
  | succ k ih => simp [beBytes, ih]

theorem foldl_be (bs : List Byte) (a : Nat) :
    bs.foldl (fun n b => n * 256 + b.toNat) a =
      a * 256 ^ bs.length + bs.foldl (fun n b => n * 256 + b.toNat) 0 := by
  induction bs generalizing a with
  | nil => simp
  | cons b bs ih =>
    simp only [List.foldl_cons, List.length_cons, pow_succ]
    rw [ih (a * 256 + b.toNat), ih (0 * 256 + b.toNat)]
    ring

theorem beNat_cons (b : Byte) (bs : List Byte) : beNat (b :: bs) = b.toNat * 256 ^ bs.length + beNat bs := by
  simp only [beNat, List.foldl_cons, Nat.zero_mul, Nat.zero_add]
  exact foldl_be bs b.toNat

/-- The bytes written for a number read back as the number, mod 256 to their count. -/
theorem beNat_beBytes (k n : Nat) : beNat (beBytes k n) = n % 256 ^ k := by
  induction k with
  | zero => simp [beBytes, beNat, Nat.mod_one]
  | succ k ih =>
    have h := Nat.mod_mul (x := n) (a := 256 ^ k) (b := 256)
    rw [beBytes, beNat_cons, ih, length_beBytes, BitVec.toNat_ofNat, pow_succ 256 k, h]
    norm_num
    ring

end Sys2Proof.Laws
end

