-- ==== Sys2Proof/Laws/State.lean ====
section
/-! SUPPORT. One lemma per field for each plain update of State: what the update leaves is as it was. -/

namespace Sys2Proof.Laws

open Sys2Proof Sys2Proof.Machine

variable (s : State)

@[simp] theorem setParam_pending (p : ParamId) (v : Nat) : (s.setParam p v).pending = s.pending := rfl
@[simp] theorem setParam_ports (p : ParamId) (v : Nat) : (s.setParam p v).ports = s.ports := rfl
@[simp] theorem setParam_prefixes (p : ParamId) (v : Nat) : (s.setParam p v).prefixes = s.prefixes := rfl
@[simp] theorem setParam_table (p : ParamId) (v : Nat) : (s.setParam p v).table = s.table := rfl
@[simp] theorem setParam_decl (p : ParamId) (v : Nat) : (s.setParam p v).decl = s.decl := rfl
@[simp] theorem setParam_mirror (p : ParamId) (v : Nat) : (s.setParam p v).mirror = s.mirror := rfl
@[simp] theorem setParam_health (p : ParamId) (v : Nat) : (s.setParam p v).health = s.health := rfl
@[simp] theorem setParam_role (p : ParamId) (v : Nat) : (s.setParam p v).role = s.role := rfl
@[simp] theorem setParam_park (p : ParamId) (v : Nat) : (s.setParam p v).park = s.park := rfl
@[simp] theorem setParam_sweepers (p : ParamId) (v : Nat) : (s.setParam p v).sweepers = s.sweepers := rfl
@[simp] theorem setParam_requests (p : ParamId) (v : Nat) : (s.setParam p v).requests = s.requests := rfl
@[simp] theorem setParam_events (p : ParamId) (v : Nat) : (s.setParam p v).events = s.events := rfl
@[simp] theorem setParam_counters (p : ParamId) (v : Nat) : (s.setParam p v).counters = s.counters := rfl
@[simp] theorem setParam_freeReads (p : ParamId) (v : Nat) : (s.setParam p v).freeReads = s.freeReads := rfl

@[simp] theorem add_pending (c : Counter) (n : Nat) : (s.add c n).pending = s.pending := rfl
@[simp] theorem add_ports (c : Counter) (n : Nat) : (s.add c n).ports = s.ports := rfl
@[simp] theorem add_prefixes (c : Counter) (n : Nat) : (s.add c n).prefixes = s.prefixes := rfl
@[simp] theorem add_table (c : Counter) (n : Nat) : (s.add c n).table = s.table := rfl
@[simp] theorem add_decl (c : Counter) (n : Nat) : (s.add c n).decl = s.decl := rfl
@[simp] theorem add_mirror (c : Counter) (n : Nat) : (s.add c n).mirror = s.mirror := rfl
@[simp] theorem add_health (c : Counter) (n : Nat) : (s.add c n).health = s.health := rfl
@[simp] theorem add_role (c : Counter) (n : Nat) : (s.add c n).role = s.role := rfl
@[simp] theorem add_park (c : Counter) (n : Nat) : (s.add c n).park = s.park := rfl
@[simp] theorem add_sweepers (c : Counter) (n : Nat) : (s.add c n).sweepers = s.sweepers := rfl
@[simp] theorem add_params (c : Counter) (n : Nat) : (s.add c n).params = s.params := rfl
@[simp] theorem add_requests (c : Counter) (n : Nat) : (s.add c n).requests = s.requests := rfl
@[simp] theorem add_events (c : Counter) (n : Nat) : (s.add c n).events = s.events := rfl
@[simp] theorem add_freeReads (c : Counter) (n : Nat) : (s.add c n).freeReads = s.freeReads := rfl

@[simp] theorem inc_pending (c : Counter) : (s.inc c).pending = s.pending := rfl
@[simp] theorem inc_ports (c : Counter) : (s.inc c).ports = s.ports := rfl
@[simp] theorem inc_prefixes (c : Counter) : (s.inc c).prefixes = s.prefixes := rfl
@[simp] theorem inc_table (c : Counter) : (s.inc c).table = s.table := rfl
@[simp] theorem inc_decl (c : Counter) : (s.inc c).decl = s.decl := rfl
@[simp] theorem inc_mirror (c : Counter) : (s.inc c).mirror = s.mirror := rfl
@[simp] theorem inc_health (c : Counter) : (s.inc c).health = s.health := rfl
@[simp] theorem inc_role (c : Counter) : (s.inc c).role = s.role := rfl
@[simp] theorem inc_park (c : Counter) : (s.inc c).park = s.park := rfl
@[simp] theorem inc_sweepers (c : Counter) : (s.inc c).sweepers = s.sweepers := rfl
@[simp] theorem inc_params (c : Counter) : (s.inc c).params = s.params := rfl
@[simp] theorem inc_requests (c : Counter) : (s.inc c).requests = s.requests := rfl
@[simp] theorem inc_events (c : Counter) : (s.inc c).events = s.events := rfl
@[simp] theorem inc_freeReads (c : Counter) : (s.inc c).freeReads = s.freeReads := rfl

@[simp] theorem setPort_pending (p : Port) (x : PortState) : (s.setPort p x).pending = s.pending := rfl
@[simp] theorem setPort_prefixes (p : Port) (x : PortState) : (s.setPort p x).prefixes = s.prefixes := rfl
@[simp] theorem setPort_table (p : Port) (x : PortState) : (s.setPort p x).table = s.table := rfl
@[simp] theorem setPort_decl (p : Port) (x : PortState) : (s.setPort p x).decl = s.decl := rfl
@[simp] theorem setPort_mirror (p : Port) (x : PortState) : (s.setPort p x).mirror = s.mirror := rfl
@[simp] theorem setPort_health (p : Port) (x : PortState) : (s.setPort p x).health = s.health := rfl
@[simp] theorem setPort_role (p : Port) (x : PortState) : (s.setPort p x).role = s.role := rfl
@[simp] theorem setPort_park (p : Port) (x : PortState) : (s.setPort p x).park = s.park := rfl
@[simp] theorem setPort_sweepers (p : Port) (x : PortState) : (s.setPort p x).sweepers = s.sweepers := rfl
@[simp] theorem setPort_params (p : Port) (x : PortState) : (s.setPort p x).params = s.params := rfl
@[simp] theorem setPort_requests (p : Port) (x : PortState) : (s.setPort p x).requests = s.requests := rfl
@[simp] theorem setPort_events (p : Port) (x : PortState) : (s.setPort p x).events = s.events := rfl
@[simp] theorem setPort_counters (p : Port) (x : PortState) : (s.setPort p x).counters = s.counters := rfl
@[simp] theorem setPort_freeReads (p : Port) (x : PortState) : (s.setPort p x).freeReads = s.freeReads := rfl

@[simp] theorem setFw_pending (f : Fw) (h : HealthRecord) : (s.setFw f h).pending = s.pending := rfl
@[simp] theorem setFw_ports (f : Fw) (h : HealthRecord) : (s.setFw f h).ports = s.ports := rfl
@[simp] theorem setFw_prefixes (f : Fw) (h : HealthRecord) : (s.setFw f h).prefixes = s.prefixes := rfl
@[simp] theorem setFw_table (f : Fw) (h : HealthRecord) : (s.setFw f h).table = s.table := rfl
@[simp] theorem setFw_decl (f : Fw) (h : HealthRecord) : (s.setFw f h).decl = s.decl := rfl
@[simp] theorem setFw_mirror (f : Fw) (h : HealthRecord) : (s.setFw f h).mirror = s.mirror := rfl
@[simp] theorem setFw_role (f : Fw) (h : HealthRecord) : (s.setFw f h).role = s.role := rfl
@[simp] theorem setFw_park (f : Fw) (h : HealthRecord) : (s.setFw f h).park = s.park := rfl
@[simp] theorem setFw_sweepers (f : Fw) (h : HealthRecord) : (s.setFw f h).sweepers = s.sweepers := rfl
@[simp] theorem setFw_params (f : Fw) (h : HealthRecord) : (s.setFw f h).params = s.params := rfl
@[simp] theorem setFw_requests (f : Fw) (h : HealthRecord) : (s.setFw f h).requests = s.requests := rfl
@[simp] theorem setFw_events (f : Fw) (h : HealthRecord) : (s.setFw f h).events = s.events := rfl
@[simp] theorem setFw_counters (f : Fw) (h : HealthRecord) : (s.setFw f h).counters = s.counters := rfl
@[simp] theorem setFw_freeReads (f : Fw) (h : HealthRecord) : (s.setFw f h).freeReads = s.freeReads := rfl

@[simp] theorem latch_pending (ev : EventId) : (s.latch ev).pending = s.pending := rfl
@[simp] theorem latch_ports (ev : EventId) : (s.latch ev).ports = s.ports := rfl
@[simp] theorem latch_prefixes (ev : EventId) : (s.latch ev).prefixes = s.prefixes := rfl
@[simp] theorem latch_table (ev : EventId) : (s.latch ev).table = s.table := rfl
@[simp] theorem latch_decl (ev : EventId) : (s.latch ev).decl = s.decl := rfl
@[simp] theorem latch_mirror (ev : EventId) : (s.latch ev).mirror = s.mirror := rfl
@[simp] theorem latch_health (ev : EventId) : (s.latch ev).health = s.health := rfl
@[simp] theorem latch_role (ev : EventId) : (s.latch ev).role = s.role := rfl
@[simp] theorem latch_park (ev : EventId) : (s.latch ev).park = s.park := rfl
@[simp] theorem latch_sweepers (ev : EventId) : (s.latch ev).sweepers = s.sweepers := rfl
@[simp] theorem latch_params (ev : EventId) : (s.latch ev).params = s.params := rfl
@[simp] theorem latch_requests (ev : EventId) : (s.latch ev).requests = s.requests := rfl
@[simp] theorem latch_counters (ev : EventId) : (s.latch ev).counters = s.counters := rfl
@[simp] theorem latch_freeReads (ev : EventId) : (s.latch ev).freeReads = s.freeReads := rfl

@[simp] theorem setEntry_pending (h : Nat) (e : Entry) : (s.setEntry h e).pending = s.pending := rfl
@[simp] theorem setEntry_ports (h : Nat) (e : Entry) : (s.setEntry h e).ports = s.ports := rfl
@[simp] theorem setEntry_prefixes (h : Nat) (e : Entry) : (s.setEntry h e).prefixes = s.prefixes := rfl
@[simp] theorem setEntry_decl (h : Nat) (e : Entry) : (s.setEntry h e).decl = s.decl := rfl
@[simp] theorem setEntry_mirror (h : Nat) (e : Entry) : (s.setEntry h e).mirror = s.mirror := rfl
@[simp] theorem setEntry_health (h : Nat) (e : Entry) : (s.setEntry h e).health = s.health := rfl
@[simp] theorem setEntry_role (h : Nat) (e : Entry) : (s.setEntry h e).role = s.role := rfl
@[simp] theorem setEntry_park (h : Nat) (e : Entry) : (s.setEntry h e).park = s.park := rfl
@[simp] theorem setEntry_sweepers (h : Nat) (e : Entry) : (s.setEntry h e).sweepers = s.sweepers := rfl
@[simp] theorem setEntry_params (h : Nat) (e : Entry) : (s.setEntry h e).params = s.params := rfl
@[simp] theorem setEntry_requests (h : Nat) (e : Entry) : (s.setEntry h e).requests = s.requests := rfl
@[simp] theorem setEntry_events (h : Nat) (e : Entry) : (s.setEntry h e).events = s.events := rfl
@[simp] theorem setEntry_counters (h : Nat) (e : Entry) : (s.setEntry h e).counters = s.counters := rfl
@[simp] theorem setEntry_freeReads (h : Nat) (e : Entry) : (s.setEntry h e).freeReads = s.freeReads := rfl

@[simp] theorem placeKey_pending (h : Nat) (side : Side) (k : Key) : (s.placeKey h side k).pending = s.pending := rfl
@[simp] theorem placeKey_ports (h : Nat) (side : Side) (k : Key) : (s.placeKey h side k).ports = s.ports := rfl
@[simp] theorem placeKey_prefixes (h : Nat) (side : Side) (k : Key) : (s.placeKey h side k).prefixes = s.prefixes := rfl
@[simp] theorem placeKey_decl (h : Nat) (side : Side) (k : Key) : (s.placeKey h side k).decl = s.decl := rfl
@[simp] theorem placeKey_mirror (h : Nat) (side : Side) (k : Key) : (s.placeKey h side k).mirror = s.mirror := rfl
@[simp] theorem placeKey_health (h : Nat) (side : Side) (k : Key) : (s.placeKey h side k).health = s.health := rfl
@[simp] theorem placeKey_role (h : Nat) (side : Side) (k : Key) : (s.placeKey h side k).role = s.role := rfl
@[simp] theorem placeKey_park (h : Nat) (side : Side) (k : Key) : (s.placeKey h side k).park = s.park := rfl
@[simp] theorem placeKey_sweepers (h : Nat) (side : Side) (k : Key) : (s.placeKey h side k).sweepers = s.sweepers := rfl
@[simp] theorem placeKey_params (h : Nat) (side : Side) (k : Key) : (s.placeKey h side k).params = s.params := rfl
@[simp] theorem placeKey_requests (h : Nat) (side : Side) (k : Key) : (s.placeKey h side k).requests = s.requests := rfl
@[simp] theorem placeKey_events (h : Nat) (side : Side) (k : Key) : (s.placeKey h side k).events = s.events := rfl
@[simp] theorem placeKey_counters (h : Nat) (side : Side) (k : Key) : (s.placeKey h side k).counters = s.counters := rfl
@[simp] theorem placeKey_freeReads (h : Nat) (side : Side) (k : Key) : (s.placeKey h side k).freeReads = s.freeReads := rfl

@[simp] theorem emptySlots_pending (h : Nat) : (s.emptySlots h).pending = s.pending := rfl
@[simp] theorem emptySlots_ports (h : Nat) : (s.emptySlots h).ports = s.ports := rfl
@[simp] theorem emptySlots_prefixes (h : Nat) : (s.emptySlots h).prefixes = s.prefixes := rfl
@[simp] theorem emptySlots_decl (h : Nat) : (s.emptySlots h).decl = s.decl := rfl
@[simp] theorem emptySlots_mirror (h : Nat) : (s.emptySlots h).mirror = s.mirror := rfl
@[simp] theorem emptySlots_health (h : Nat) : (s.emptySlots h).health = s.health := rfl
@[simp] theorem emptySlots_role (h : Nat) : (s.emptySlots h).role = s.role := rfl
@[simp] theorem emptySlots_park (h : Nat) : (s.emptySlots h).park = s.park := rfl
@[simp] theorem emptySlots_sweepers (h : Nat) : (s.emptySlots h).sweepers = s.sweepers := rfl
@[simp] theorem emptySlots_params (h : Nat) : (s.emptySlots h).params = s.params := rfl
@[simp] theorem emptySlots_requests (h : Nat) : (s.emptySlots h).requests = s.requests := rfl
@[simp] theorem emptySlots_events (h : Nat) : (s.emptySlots h).events = s.events := rfl
@[simp] theorem emptySlots_counters (h : Nat) : (s.emptySlots h).counters = s.counters := rfl
@[simp] theorem emptySlots_freeReads (h : Nat) : (s.emptySlots h).freeReads = s.freeReads := rfl

@[simp] theorem addEntry_pending (h : Nat) (e : Entry) : (s.addEntry h e).pending = s.pending := rfl
@[simp] theorem addEntry_ports (h : Nat) (e : Entry) : (s.addEntry h e).ports = s.ports := rfl
@[simp] theorem addEntry_prefixes (h : Nat) (e : Entry) : (s.addEntry h e).prefixes = s.prefixes := rfl
@[simp] theorem addEntry_decl (h : Nat) (e : Entry) : (s.addEntry h e).decl = s.decl := rfl
@[simp] theorem addEntry_mirror (h : Nat) (e : Entry) : (s.addEntry h e).mirror = s.mirror := rfl
@[simp] theorem addEntry_health (h : Nat) (e : Entry) : (s.addEntry h e).health = s.health := rfl
@[simp] theorem addEntry_role (h : Nat) (e : Entry) : (s.addEntry h e).role = s.role := rfl
@[simp] theorem addEntry_park (h : Nat) (e : Entry) : (s.addEntry h e).park = s.park := rfl
@[simp] theorem addEntry_sweepers (h : Nat) (e : Entry) : (s.addEntry h e).sweepers = s.sweepers := rfl
@[simp] theorem addEntry_params (h : Nat) (e : Entry) : (s.addEntry h e).params = s.params := rfl
@[simp] theorem addEntry_requests (h : Nat) (e : Entry) : (s.addEntry h e).requests = s.requests := rfl
@[simp] theorem addEntry_events (h : Nat) (e : Entry) : (s.addEntry h e).events = s.events := rfl
@[simp] theorem addEntry_counters (h : Nat) (e : Entry) : (s.addEntry h e).counters = s.counters := rfl
@[simp] theorem addEntry_freeReads (h : Nat) (e : Entry) : (s.addEntry h e).freeReads = s.freeReads := rfl

@[simp] theorem mapAllBlocks_pending (g : Nat → List Nat → List Nat) : (s.mapAllBlocks g).pending = s.pending := rfl
@[simp] theorem mapAllBlocks_ports (g : Nat → List Nat → List Nat) : (s.mapAllBlocks g).ports = s.ports := rfl
@[simp] theorem mapAllBlocks_prefixes (g : Nat → List Nat → List Nat) : (s.mapAllBlocks g).prefixes = s.prefixes := rfl
@[simp] theorem mapAllBlocks_decl (g : Nat → List Nat → List Nat) : (s.mapAllBlocks g).decl = s.decl := rfl
@[simp] theorem mapAllBlocks_mirror (g : Nat → List Nat → List Nat) : (s.mapAllBlocks g).mirror = s.mirror := rfl
@[simp] theorem mapAllBlocks_health (g : Nat → List Nat → List Nat) : (s.mapAllBlocks g).health = s.health := rfl
@[simp] theorem mapAllBlocks_role (g : Nat → List Nat → List Nat) : (s.mapAllBlocks g).role = s.role := rfl
@[simp] theorem mapAllBlocks_park (g : Nat → List Nat → List Nat) : (s.mapAllBlocks g).park = s.park := rfl
@[simp] theorem mapAllBlocks_sweepers (g : Nat → List Nat → List Nat) : (s.mapAllBlocks g).sweepers = s.sweepers := rfl
@[simp] theorem mapAllBlocks_params (g : Nat → List Nat → List Nat) : (s.mapAllBlocks g).params = s.params := rfl
@[simp] theorem mapAllBlocks_requests (g : Nat → List Nat → List Nat) : (s.mapAllBlocks g).requests = s.requests := rfl
@[simp] theorem mapAllBlocks_events (g : Nat → List Nat → List Nat) : (s.mapAllBlocks g).events = s.events := rfl
@[simp] theorem mapAllBlocks_counters (g : Nat → List Nat → List Nat) : (s.mapAllBlocks g).counters = s.counters := rfl
@[simp] theorem mapAllBlocks_freeReads (g : Nat → List Nat → List Nat) : (s.mapAllBlocks g).freeReads = s.freeReads := rfl

@[simp] theorem mapEntries_pending (g : Entry → Entry) : (s.mapEntries g).pending = s.pending := rfl
@[simp] theorem mapEntries_ports (g : Entry → Entry) : (s.mapEntries g).ports = s.ports := rfl
@[simp] theorem mapEntries_prefixes (g : Entry → Entry) : (s.mapEntries g).prefixes = s.prefixes := rfl
@[simp] theorem mapEntries_decl (g : Entry → Entry) : (s.mapEntries g).decl = s.decl := rfl
@[simp] theorem mapEntries_mirror (g : Entry → Entry) : (s.mapEntries g).mirror = s.mirror := rfl
@[simp] theorem mapEntries_health (g : Entry → Entry) : (s.mapEntries g).health = s.health := rfl
@[simp] theorem mapEntries_role (g : Entry → Entry) : (s.mapEntries g).role = s.role := rfl
@[simp] theorem mapEntries_park (g : Entry → Entry) : (s.mapEntries g).park = s.park := rfl
@[simp] theorem mapEntries_sweepers (g : Entry → Entry) : (s.mapEntries g).sweepers = s.sweepers := rfl
@[simp] theorem mapEntries_params (g : Entry → Entry) : (s.mapEntries g).params = s.params := rfl
@[simp] theorem mapEntries_requests (g : Entry → Entry) : (s.mapEntries g).requests = s.requests := rfl
@[simp] theorem mapEntries_events (g : Entry → Entry) : (s.mapEntries g).events = s.events := rfl
@[simp] theorem mapEntries_counters (g : Entry → Entry) : (s.mapEntries g).counters = s.counters := rfl
@[simp] theorem mapEntries_freeReads (g : Entry → Entry) : (s.mapEntries g).freeReads = s.freeReads := rfl

@[simp] theorem leaveRelease_pending (h : Nat) : (s.leaveRelease h).pending = s.pending := rfl
@[simp] theorem leaveRelease_ports (h : Nat) : (s.leaveRelease h).ports = s.ports := rfl
@[simp] theorem leaveRelease_prefixes (h : Nat) : (s.leaveRelease h).prefixes = s.prefixes := rfl
@[simp] theorem leaveRelease_table (h : Nat) : (s.leaveRelease h).table = s.table := rfl
@[simp] theorem leaveRelease_decl (h : Nat) : (s.leaveRelease h).decl = s.decl := rfl
@[simp] theorem leaveRelease_mirror (h : Nat) : (s.leaveRelease h).mirror = s.mirror := rfl
@[simp] theorem leaveRelease_health (h : Nat) : (s.leaveRelease h).health = s.health := rfl
@[simp] theorem leaveRelease_role (h : Nat) : (s.leaveRelease h).role = s.role := rfl
@[simp] theorem leaveRelease_sweepers (h : Nat) : (s.leaveRelease h).sweepers = s.sweepers := rfl
@[simp] theorem leaveRelease_params (h : Nat) : (s.leaveRelease h).params = s.params := rfl
@[simp] theorem leaveRelease_requests (h : Nat) : (s.leaveRelease h).requests = s.requests := rfl
@[simp] theorem leaveRelease_events (h : Nat) : (s.leaveRelease h).events = s.events := rfl
@[simp] theorem leaveRelease_counters (h : Nat) : (s.leaveRelease h).counters = s.counters := rfl
@[simp] theorem leaveRelease_freeReads (h : Nat) : (s.leaveRelease h).freeReads = s.freeReads := rfl

@[simp] theorem evalFitness_pending : (s.evalFitness).pending = s.pending := rfl
@[simp] theorem evalFitness_ports : (s.evalFitness).ports = s.ports := rfl
@[simp] theorem evalFitness_prefixes : (s.evalFitness).prefixes = s.prefixes := rfl
@[simp] theorem evalFitness_table : (s.evalFitness).table = s.table := rfl
@[simp] theorem evalFitness_decl : (s.evalFitness).decl = s.decl := rfl
@[simp] theorem evalFitness_mirror : (s.evalFitness).mirror = s.mirror := rfl
@[simp] theorem evalFitness_health : (s.evalFitness).health = s.health := rfl
@[simp] theorem evalFitness_park : (s.evalFitness).park = s.park := rfl
@[simp] theorem evalFitness_sweepers : (s.evalFitness).sweepers = s.sweepers := rfl
@[simp] theorem evalFitness_params : (s.evalFitness).params = s.params := rfl
@[simp] theorem evalFitness_requests : (s.evalFitness).requests = s.requests := rfl
@[simp] theorem evalFitness_events : (s.evalFitness).events = s.events := rfl
@[simp] theorem evalFitness_counters : (s.evalFitness).counters = s.counters := rfl
@[simp] theorem evalFitness_freeReads : (s.evalFitness).freeReads = s.freeReads := rfl

@[simp] theorem withFront_ports (c : Instr) : (s.withFront c).ports = s.ports := rfl
@[simp] theorem withFront_prefixes (c : Instr) : (s.withFront c).prefixes = s.prefixes := rfl
@[simp] theorem withFront_table (c : Instr) : (s.withFront c).table = s.table := rfl
@[simp] theorem withFront_decl (c : Instr) : (s.withFront c).decl = s.decl := rfl
@[simp] theorem withFront_mirror (c : Instr) : (s.withFront c).mirror = s.mirror := rfl
@[simp] theorem withFront_health (c : Instr) : (s.withFront c).health = s.health := rfl
@[simp] theorem withFront_role (c : Instr) : (s.withFront c).role = s.role := rfl
@[simp] theorem withFront_park (c : Instr) : (s.withFront c).park = s.park := rfl
@[simp] theorem withFront_sweepers (c : Instr) : (s.withFront c).sweepers = s.sweepers := rfl
@[simp] theorem withFront_params (c : Instr) : (s.withFront c).params = s.params := rfl
@[simp] theorem withFront_requests (c : Instr) : (s.withFront c).requests = s.requests := rfl
@[simp] theorem withFront_events (c : Instr) : (s.withFront c).events = s.events := rfl
@[simp] theorem withFront_counters (c : Instr) : (s.withFront c).counters = s.counters := rfl
@[simp] theorem withFront_freeReads (c : Instr) : (s.withFront c).freeReads = s.freeReads := rfl

@[simp] theorem setPort_ports (p : Port) (x : PortState) : (s.setPort p x).ports = s.ports.set p x := rfl
@[simp] theorem setFw_health (f : Fw) (h : HealthRecord) : (s.setFw f h).health = s.health.set f h := rfl
@[simp] theorem setEntry_entries (h : Nat) (e : Entry) :
    (s.setEntry h e).table.entries = SMap.put s.table.entries h e := rfl
@[simp] theorem withFront_pending (c : Instr) : (s.withFront c).pending = c :: s.pending := rfl

end Sys2Proof.Laws
end

