-- ==== Sys2Proof/Laws/Kept.lean ====
section
/-! SUPPORT. Three frames that nearly every operation keeps, and what the plain updates keep of them. `Kept` says what an
operation of the block never touches, and the invariants it carries on; `Still` adds what only a move of the active role
or an accepted DECLARE's sequence check changes; `Held` adds the handles in use and their phases. -/

namespace Sys2Proof.Laws

open Sys2Proof Sys2Proof.Machine

/-! ## Phases of rewritten entries -/

@[simp] theorem phase_mapMirror (e : Entry) (g : MirrorPart → MirrorPart) : (e.mapMirror g).phase = e.phase := by
  unfold Entry.mapMirror Entry.phase; cases hb : e.body <;> simp [hb]

@[simp] theorem phase_mapLive (e : Entry) (g : LivePart → LivePart) : (e.mapLive g).phase = e.phase := by
  unfold Entry.mapLive Entry.phase; cases hb : e.body <;> simp [hb]

@[simp] theorem phase_mapBlocks (e : Entry) (g : List Nat → List Nat) : (e.mapBlocks g).phase = e.phase := by
  unfold Entry.mapBlocks Entry.phase; cases hb : e.body <;> simp [hb]

@[simp] theorem phase_forget (e : Entry) : e.forget.phase = e.phase := by
  unfold Entry.forget Entry.phase; cases hb : e.body <;> simp [hb]

@[simp] theorem phase_replace (e : Entry) (r : DeclRecord) (f : Fw) : (e.replace r f).phase = e.phase := by
  unfold Entry.replace Body.redeclare Entry.phase; cases e.body <;> rfl

theorem phase_tcp (e : Entry) (x : Option Tracking) : ({ e with tcp := x } : Entry).phase = e.phase := rfl

theorem phase_tag (e : Entry) (n : Nat) : ({ e with idleTag := n } : Entry).phase = e.phase := rfl

/-! ## Entries: the shape of the table -/

/-- What of the entries the invariant of the table reads. -/
def shape (es : SMap Entry) : List (Nat × Phase) := es.map (fun x => (x.1, x.2.phase))

theorem above_shape (es : SMap Entry) (b : Nat) : SMap.above (shape es) b = SMap.above es b := by
  induction es generalizing b with
  | nil => rfl
  | cons x t ih => simp only [shape, List.map_cons, SMap.above] at *; rw [ih]

theorem wf_shape (es : SMap Entry) : SMap.wf (shape es) = SMap.wf es := by
  cases es with
  | nil => rfl
  | cons x t => exact above_shape t x.1

theorem length_shape (es : SMap Entry) : (shape es).length = es.length := by simp [shape]

theorem mem_shape {es : SMap Entry} {n : Nat} : (∃ x ∈ es, x.1 = n) ↔ ∃ y ∈ shape es, y.1 = n := by simp [shape]

theorem tentatives_shape (es : SMap Entry) :
    tentatives es = ((shape es).filter (fun x => x.2 == .tentative)).length := by
  simp [tentatives, shape, List.filter_map, Function.comp_def]

theorem shape_map (es : SMap Entry) (g : Nat → Entry → Entry) (hg : ∀ n e, (g n e).phase = e.phase) :
    shape (es.map (fun x => (x.1, g x.1 x.2))) = shape es := by simp [shape, hg]

theorem shape_put {es : SMap Entry} {k : Nat} {e0 e : Entry} (hw : SMap.wf es = true) (h0 : SMap.get? es k = some e0)
    (hp : e.phase = e0.phase) : shape (SMap.put es k e) = shape es := by
  induction es with
  | nil => simp [SMap.get?] at h0
  | cons x t ih =>
    obtain ⟨i, y⟩ := x
    simp only [SMap.get?] at h0
    simp only [SMap.put]
    split
    · exfalso
      rename_i hlt
      rw [if_neg (by omega)] at h0
      rw [smap_get_above (b := i) hw (by omega)] at h0
      cases h0
    · split
      · subst_vars; simp only [if_true, Option.some.injEq] at h0; subst h0; simp [shape, hp]
      · rename_i hne
        rw [if_neg (Ne.symm hne)] at h0
        have ht : SMap.wf t = true := by
          cases t with
          | nil => rfl
          | cons z u => simp only [SMap.wf, SMap.above, Bool.and_eq_true] at hw ⊢; exact hw.2
        have := ih ht h0
        simp only [shape, List.map_cons] at this ⊢
        rw [this]

/-! ## The frames -/

/-- What every operation below keeps from `s` to `t`. -/
structure Kept (s t : State) : Prop where
  pending : t.pending = s.pending
  params : t.params = s.params
  prefixes : t.prefixes = s.prefixes
  freeReads : t.freeReads = s.freeReads
  requests : t.requests = s.requests
  health : t.health = s.health
  sends : s.onlySends t
  queues : s.queuesOk → t.queuesOk
  table : s.tableOk → t.tableOk
  flags : ∀ ev, (s.event ev).flag = true → (t.event ev).flag = true
  counts : ∀ c, s.count c ≤ Config.counterMax → s.count c ≤ t.count c ∧ t.count c ≤ Config.counterMax

/-- `Kept`, with the active firewall, the epoch and the sequence records as they were. -/
structure Still (s t : State) : Prop extends Kept s t where
  active : t.role.active = s.role.active
  epoch : t.role.epoch = s.role.epoch
  decl : t.decl = s.decl

/-- `Still`, with the handles in use and the phase of each as they were. -/
structure Held (s t : State) : Prop extends Still s t where
  shape : s.tableOk → shape t.table.entries = shape s.table.entries

variable {s t u : State}

theorem onlySends_refl (s : State) : s.onlySends s := fun _ => ⟨rfl, [], by simp⟩

theorem onlySends_trans (h : s.onlySends t) (k : t.onlySends u) : s.onlySends u := fun p => by
  obtain ⟨h1, fs, h2⟩ := h p
  obtain ⟨k1, gs, k2⟩ := k p
  exact ⟨k1.trans h1, fs ++ gs, by rw [k2, h2, List.append_assoc]⟩

theorem Kept.refl (s : State) : Kept s s := ⟨rfl, rfl, rfl, rfl, rfl, rfl, onlySends_refl s, id, id, fun _ h => h, fun _ h => ⟨Nat.le_refl _, h⟩⟩

theorem Still.refl (s : State) : Still s s := ⟨.refl s, rfl, rfl, rfl⟩

theorem Held.refl (s : State) : Held s s := ⟨.refl s, fun _ => rfl⟩

theorem Kept.trans (h : Kept s t) (k : Kept t u) : Kept s u :=
  ⟨k.pending.trans h.pending, k.params.trans h.params, k.prefixes.trans h.prefixes, k.freeReads.trans h.freeReads,
    k.requests.trans h.requests, k.health.trans h.health, onlySends_trans h.sends k.sends, k.queues ∘ h.queues,
    k.table ∘ h.table, fun ev e => k.flags ev (h.flags ev e),
    fun c e => ⟨(h.counts c e).1.trans (k.counts c (h.counts c e).2).1, (k.counts c (h.counts c e).2).2⟩⟩

theorem Still.trans (h : Still s t) (k : Still t u) : Still s u :=
  ⟨h.toKept.trans k.toKept, k.active.trans h.active, k.epoch.trans h.epoch, k.decl.trans h.decl⟩

theorem Held.trans (h : Held s t) (k : Held t u) : Held s u :=
  ⟨h.toStill.trans k.toStill, fun hs => (k.shape (h.table hs)).trans (h.shape hs)⟩

theorem Held.ite {c : Prop} [Decidable c] {a b : State} (ha : c → Held s a) (hb : ¬c → Held s b) :
    Held s (if c then a else b) := by split <;> rename_i h <;> [exact ha h; exact hb h]

theorem Still.ite {c : Prop} [Decidable c] {a b : State} (ha : c → Still s a) (hb : ¬c → Still s b) :
    Still s (if c then a else b) := by split <;> rename_i h <;> [exact ha h; exact hb h]

theorem Kept.ite {c : Prop} [Decidable c] {a b : State} (ha : c → Kept s a) (hb : ¬c → Kept s b) :
    Kept s (if c then a else b) := by split <;> rename_i h <;> [exact ha h; exact hb h]

/-! ## Folds -/

theorem Held.foldl {α : Type} {g : State → α → State} (hg : ∀ u x, Held u (g u x)) (xs : List α) (s : State) :
    Held s (xs.foldl g s) := by
  induction xs generalizing s with
  | nil => exact .refl s
  | cons x xs ih => exact (hg s x).trans (ih _)

theorem Still.foldl {α : Type} {g : State → α → State} (hg : ∀ u x, Still u (g u x)) (xs : List α) (s : State) :
    Still s (xs.foldl g s) := by
  induction xs generalizing s with
  | nil => exact .refl s
  | cons x xs ih => exact (hg s x).trans (ih _)

/-! ## Updates of one part of the state -/

theorem role_kept (s : State) (r : Role) : Kept s { s with role := r } :=
  ⟨rfl, rfl, rfl, rfl, rfl, rfl, onlySends_refl s, id, id, fun _ h => h, fun _ h => ⟨Nat.le_refl _, h⟩⟩

theorem role_held (s : State) {r : Role} (ha : r.active = s.role.active) (he : r.epoch = s.role.epoch) :
    Held s { s with role := r } := ⟨⟨role_kept s r, ha, he, rfl⟩, fun _ => rfl⟩

theorem decl_kept (s : State) (d : PerFw (Option SeqRecord)) : Kept s { s with decl := d } :=
  ⟨rfl, rfl, rfl, rfl, rfl, rfl, onlySends_refl s, id, id, fun _ h => h, fun _ h => ⟨Nat.le_refl _, h⟩⟩

theorem mirror_held (s : State) (m : Mirror) : Held s { s with mirror := m } :=
  ⟨⟨⟨rfl, rfl, rfl, rfl, rfl, rfl, onlySends_refl s, id, id, fun _ h => h, fun _ h => ⟨Nat.le_refl _, h⟩⟩, rfl, rfl, rfl⟩, fun _ => rfl⟩

theorem park_held (s : State) (p : Park) : Held s { s with park := p } :=
  ⟨⟨⟨rfl, rfl, rfl, rfl, rfl, rfl, onlySends_refl s, id, id, fun _ h => h, fun _ h => ⟨Nat.le_refl _, h⟩⟩, rfl, rfl, rfl⟩, fun _ => rfl⟩

theorem sweepers_held (s : State) (w : Sweepers) : Held s { s with sweepers := w } :=
  ⟨⟨⟨rfl, rfl, rfl, rfl, rfl, rfl, onlySends_refl s, id, id, fun _ h => h, fun _ h => ⟨Nat.le_refl _, h⟩⟩, rfl, rfl, rfl⟩, fun _ => rfl⟩

theorem add_held (s : State) (c : Counter) (n : Nat) : Held s (s.add c n) := by
  refine ⟨⟨⟨rfl, rfl, rfl, rfl, rfl, rfl, onlySends_refl s, id, id, fun _ h => h, fun d hd => ?_⟩, rfl, rfl, rfl⟩,
    fun _ => rfl⟩
  rw [count_add]
  split
  · subst_vars; omega
  · exact ⟨Nat.le_refl _, hd⟩

theorem inc_held (s : State) (c : Counter) : Held s (s.inc c) := add_held s c 1

theorem latch_held (s : State) (ev : EventId) : Held s (s.latch ev) := by
  refine ⟨⟨⟨rfl, rfl, rfl, rfl, rfl, rfl, onlySends_refl s, id, id, fun d hd => ?_, fun _ h => ⟨Nat.le_refl _, h⟩⟩, rfl, rfl,
    rfl⟩, fun _ => rfl⟩
  rw [event_latch]
  split
  · unfold EventState.next; split <;> rfl
  · exact hd

theorem levels_held (s : State) (l : Levels) : Held s { s with table := { s.table with levels := l } } :=
  ⟨⟨⟨rfl, rfl, rfl, rfl, rfl, rfl, onlySends_refl s, id, id, fun _ h => h, fun _ h => ⟨Nat.le_refl _, h⟩⟩, rfl, rfl, rfl⟩, fun _ => rfl⟩

/-! ## Transmit queues -/

/-- R70: a frame handed to a queue joins its tail, or is dropped and counted. -/
theorem handTx_cases (s : State) (p : Port) (f : Frame) :
    (s.canHand p = true ∧ s.handTx p f = s.queued p f) ∨ (s.canHand p = false ∧ s.handTx p f = s.inc .txDrop) := by
  unfold State.handTx
  cases hc : s.canHand p
  · exact .inr ⟨rfl, by simp⟩
  · exact .inl ⟨rfl, by simp [State.queued]⟩

theorem portOk_append {x : PortState} {f : Frame} (h : x.link = .up) (hl : x.tx.length < Config.txDepth) :
    ({ x with tx := x.tx ++ [f] } : PortState).ok = true := by
  simp only [PortState.ok, h, List.length_append, List.length_singleton, Bool.and_eq_true, decide_eq_true_eq]
  exact ⟨by omega, rfl⟩

theorem handTx_held (s : State) (p : Port) (f : Frame) : Held s (s.handTx p f) := by
  rcases handTx_cases s p f with ⟨hc, e⟩ | ⟨-, e⟩
  · simp only [State.canHand, Bool.and_eq_true, beq_iff_eq, decide_eq_true_eq] at hc
    rw [e]
    refine ⟨⟨⟨rfl, rfl, rfl, rfl, rfl, rfl, fun q => ?_, fun hq q => ?_, id, fun _ h => h, fun _ h => ⟨Nat.le_refl _, h⟩⟩,
      rfl, rfl, rfl⟩, fun _ => rfl⟩
    · simp only [State.queued, port_setPort]
      split
      · subst_vars; exact ⟨rfl, [f], rfl⟩
      · exact ⟨rfl, [], by simp⟩
    · simp only [State.queued, port_setPort]
      split
      · exact portOk_append hc.1 hc.2
      · exact hq q
  · rw [e]; exact inc_held s _

/-- The invariant of the table depends on the entries' shape. -/
theorem tableOk_of_shape (ht : t.tableOk) (hs : shape u.table.entries = shape t.table.entries)
    (hk : SMap.wf u.table.slots = true) (ho : u.table.occupancy = t.table.occupancy)
    (hn : u.table.tentative = t.table.tentative) : u.tableOk := by
  obtain ⟨h1, -, h3, h4, h5⟩ := ht
  refine ⟨?_, hk, ?_, ?_, ?_⟩
  · rw [← wf_shape, hs, wf_shape]; exact h1
  · intro x hx
    obtain ⟨y, hy, e⟩ := mem_shape.mp ⟨x, hx, rfl⟩
    rw [hs] at hy
    obtain ⟨z, hz, e'⟩ := mem_shape.mpr ⟨y, hy, rfl⟩
    rw [← e, ← e']; exact h3 z hz
  · rw [ho, h4, ← length_shape, ← hs, length_shape]
  · rw [hn, h5, tentatives_shape, tentatives_shape, hs]

/-- An update of the table alone that keeps the entries' shape. -/
theorem shape_held (s : State) (tb : Table)
    (hb : s.tableOk → shape tb.entries = shape s.table.entries ∧ SMap.wf tb.slots = true ∧
      tb.occupancy = s.table.occupancy ∧ tb.tentative = s.table.tentative) : Held s { s with table := tb } :=
  ⟨⟨⟨rfl, rfl, rfl, rfl, rfl, rfl, onlySends_refl s, id, fun hs => let b := hb hs
      tableOk_of_shape (t := s) hs b.1 b.2.1 b.2.2.1 b.2.2.2, fun _ h => h, fun _ h => ⟨Nat.le_refl _, h⟩⟩, rfl, rfl, rfl⟩,
    fun hs => (hb hs).1⟩

theorem setEntry_held (s : State) {k : Nat} {e0 e : Entry} (h0 : s.entry? k = some e0) (hp : e.phase = e0.phase) :
    Held s (s.setEntry k e) := shape_held s _ (fun ht => ⟨shape_put ht.1 h0 hp, ht.2.1, rfl, rfl⟩)

theorem modifyEntry_held (s : State) (k : Nat) {g : Entry → Entry} (hg : ∀ e, (g e).phase = e.phase) :
    Held s (s.modifyEntry k g) := by
  unfold State.modifyEntry
  split
  · rename_i e he; exact setEntry_held s he (hg e)
  · exact .refl s

theorem placeKey_held (s : State) (k : Nat) (side : Side) (key : Key) : Held s (s.placeKey k side key) :=
  shape_held s _ (fun ht => ⟨rfl, smap_wf_put _ _ ht.2.1, rfl, rfl⟩)

theorem emptySlots_held (s : State) (k : Nat) : Held s (s.emptySlots k) :=
  shape_held s _ (fun ht => ⟨rfl, smap_wf_del _ (smap_wf_del _ ht.2.1), rfl, rfl⟩)

theorem mapAllBlocks_held (s : State) (g : Nat → List Nat → List Nat) : Held s (s.mapAllBlocks g) :=
  shape_held s _ (fun ht => ⟨shape_map _ (fun n e => e.mapBlocks (g n)) (fun _ _ => phase_mapBlocks _ _), ht.2.1, rfl, rfl⟩)

theorem mapEntries_held (s : State) {g : Entry → Entry} (hg : ∀ e, (g e).phase = e.phase) : Held s (s.mapEntries g) :=
  shape_held s _ (fun ht => ⟨shape_map _ (fun _ e => g e) (fun _ e => hg e), ht.2.1, rfl, rfl⟩)

end Sys2Proof.Laws
end

