-- ==== Sys2Proof/Laws/Frames.lean ====
section
/-! SUPPORT. The frame of every shared operation, in the order of the Machine files: `Held` where the operation moves no
phase of an entry, `Still` where it may free or retire one, `Kept` where it may move the active role. -/

namespace Sys2Proof.Laws

open Sys2Proof Sys2Proof.Machine

/-! ## Ops -/

theorem sendTo_held (s : State) (f : Fw) (k : CcfKind) (fl n : Byte) (q : Word16) (pl : List Byte) :
    Held s (s.sendTo f k fl n q pl) := handTx_held s _ _

theorem sendRole_held (s : State) (f : Fw) : Held s (s.sendRole f) := sendTo_held s f _ _ _ _ _

theorem sendRoleChanges_held (s : State) (ph : CutPhase) (a b : RoleName) : Held s (s.sendRoleChanges ph a b) := by
  unfold State.sendRoleChanges
  refine .ite (fun _ => ?_) (fun _ => ?_)
  · exact .trans (.ite (fun _ => sendRole_held s .a) (fun _ => .refl s)) (sendRole_held _ .b)
  · exact .ite (fun _ => sendRole_held s .a) (fun _ => .refl s)

theorem asEvent_kept {s : State} {body : State → State} (h : Kept s (body s)) : Kept s (s.asEvent body) :=
  h.trans (sendRoleChanges_held _ _ _ _).toKept

theorem asEvent_still {s : State} {body : State → State} (h : Still s (body s)) : Still s (s.asEvent body) :=
  h.trans (sendRoleChanges_held _ _ _ _).toStill

theorem mapMirror_held (s : State) (h : Nat) (g : MirrorPart → MirrorPart) : Held s (s.modifyEntry h (·.mapMirror g)) :=
  modifyEntry_held s h (fun e => phase_mapMirror e g)

theorem mapLive_held (s : State) (h : Nat) (g : LivePart → LivePart) : Held s (s.modifyEntry h (·.mapLive g)) :=
  modifyEntry_held s h (fun e => phase_mapLive e g)

theorem unqueue_held (s : State) (h : Nat) : Held s (s.unqueue h) := (mirror_held s _).trans (mapMirror_held _ h _)

theorem lanePlace_held (s : State) (h : Nat) (ln : Lane) (b : Bool) (k : RecKind) : Held s (s.lanePlace h ln b k) :=
  (mirror_held s _).trans (mapMirror_held _ h _)

theorem setQueued_held (s : State) (h : Nat) (k : RecKind) : Held s (s.setQueued h k) := mapMirror_held s h _

theorem raiseNeed_held (s : State) (h : Nat) (k : RecKind) : Held s (s.raiseNeed h k) := by
  unfold State.raiseNeed
  split
  · exact lanePlace_held s _ _ _ _
  · exact setQueued_held s _ _
  · exact .ite (fun _ => lanePlace_held s _ _ _ _) (fun _ => setQueued_held s _ _)

theorem toUrgentTail_held (s : State) (h : Nat) : Held s (s.toUrgentTail h) := by
  unfold State.toUrgentTail
  split
  · exact lanePlace_held s _ _ _ _
  · exact .refl s

theorem toUrgentHead_held (s : State) (h : Nat) : Held s (s.toUrgentHead h) := by
  unfold State.toUrgentHead
  split
  · exact lanePlace_held s _ _ _ _
  · exact .refl s

/-! ## Flags -/

theorem sendNotices_held (s : State) (ps : List Port) (ev : EventId) (bs : List Byte) : Held s (s.sendNotices ps ev bs) :=
  .foldl (fun u p => handTx_held u p _) ps s

theorem raise_held (s : State) (ev : EventId) (bs : List Byte) : Held s (s.raise ev bs) :=
  (latch_held s ev).trans (sendNotices_held _ _ _ _)

theorem raiseWrongRole_held (s : State) (f : Fw) (bs : List Byte) : Held s (s.raiseWrongRole f bs) :=
  (latch_held s .wrongRole).trans (sendNotices_held _ _ _ _)

theorem compareTableLevel_held (s : State) (n : Fin 3) : Held s (s.compareTableLevel n) :=
  .ite (fun _ => (levels_held s _).trans (raise_held _ _ _)) (fun _ => .refl s)

theorem compareTable_held (s : State) : Held s s.compareTable :=
  ((compareTableLevel_held s 0).trans (compareTableLevel_held _ 1)).trans (compareTableLevel_held _ 2)

theorem compareParkLevel_held (s : State) (n : Fin 3) : Held s (s.compareParkLevel n) :=
  .ite (fun _ => (park_held s _).trans (raise_held _ _ _)) (fun _ => .refl s)

theorem comparePark_held (s : State) : Held s s.comparePark :=
  ((compareParkLevel_held s 0).trans (compareParkLevel_held _ 1)).trans (compareParkLevel_held _ 2)

theorem clearLevels_held (s : State) : Held s s.clearLevels :=
  ⟨⟨⟨rfl, rfl, rfl, rfl, rfl, rfl, onlySends_refl s, id, id, fun _ h => h, fun _ h => ⟨Nat.le_refl _, h⟩⟩, rfl, rfl, rfl⟩, fun _ => rfl⟩

/-! ## Table -/

theorem freeCells_held (s : State) (p : Parked) : Held s (s.freeCells p) := (park_held s _).trans (comparePark_held _)

theorem leaveRelease_held (s : State) (h : Nat) : Held s (s.leaveRelease h) := park_held s _

theorem discardFrames_held (s : State) (ps : List Parked) : Held s (s.discardFrames ps) :=
  .foldl (fun u p => (freeCells_held u p).trans (inc_held _ _)) ps s

theorem discardChain_held (s : State) (h : Nat) : Held s (s.discardChain h) := by
  unfold State.discardChain
  split
  · exact ((discardFrames_held s _).trans (mapLive_held _ h _)).trans (leaveRelease_held _ h)
  · exact .refl s

theorem toSettle_held (s : State) : Held s s.toSettle := .ite (fun _ => role_held s rfl rfl) (fun _ => .refl s)

theorem unmark_held (s : State) (h : Nat) : Held s (s.unmark h) := by
  unfold State.unmark
  refine .ite (fun _ => ?_) (fun _ => .refl s)
  refine .trans (.trans ?_ (mapLive_held _ h _)) (toSettle_held _)
  exact role_held s rfl rfl

theorem setWaits_held (s : State) (h : Nat) (ws : List Nat) : Held s (s.setWaits h ws) :=
  (mapAllBlocks_held s _).trans (mapLive_held _ h _)

theorem leaveBlocks_held (s : State) (h : Nat) : Held s (s.leaveBlocks h) := mapAllBlocks_held s _

theorem releaseWaiters_held (s : State) (bs : List Nat) : Held s (s.releaseWaiters bs) :=
  .foldl (fun u g => mapLive_held u g _) bs s

theorem settleWalk_held (s : State) (h : Nat) : Held s (s.settleWalk h) := by
  unfold State.settleWalk
  split
  · exact .ite (fun _ => (mirror_held s _).trans (mapMirror_held _ h _)) (fun _ => .refl s)
  · exact .refl s

/-! ### Freeing -/

theorem get_shape (es : SMap Entry) (h : Nat) : SMap.get? (shape es) h = (SMap.get? es h).map Entry.phase := by
  induction es with
  | nil => rfl
  | cons x t ih =>
    simp only [shape, List.map_cons, SMap.get?] at ih ⊢
    split
    · rfl
    · exact ih

/-- What `Held` keeps of an entry: that it is there, and its phase. -/
theorem Held.phase? {s t : State} (k : Held s t) (hs : s.tableOk) (h : Nat) :
    (t.entry? h).map Entry.phase = (s.entry? h).map Entry.phase := by
  unfold State.entry?
  rw [← get_shape, ← get_shape, k.shape hs]

theorem mem_del {es : SMap Entry} {h : Nat} {x : Nat × Entry} (hx : x ∈ SMap.del es h) : x ∈ es := by
  induction es with
  | nil => exact hx
  | cons y t ih =>
    simp only [SMap.del] at hx
    split at hx
    · exact List.mem_cons_of_mem _ hx
    · rcases List.mem_cons.mp hx with rfl | hx
      · exact List.mem_cons_self
      · exact List.mem_cons_of_mem _ (ih hx)

theorem length_del {es : SMap Entry} {h : Nat} {e : Entry} (h0 : SMap.get? es h = some e) :
    es.length = (SMap.del es h).length + 1 := by
  induction es with
  | nil => cases h0
  | cons y t ih =>
    simp only [SMap.get?] at h0
    simp only [SMap.del]
    split
    · rfl
    · rename_i hne; rw [if_neg hne] at h0; simp [ih h0]

theorem tentatives_cons (x : Nat × Entry) (t : SMap Entry) :
    tentatives (x :: t) = (if x.2.phase = .tentative then 1 else 0) + tentatives t := by
  simp only [tentatives, List.filter_cons]
  by_cases hp : x.2.phase = .tentative
  · simp [hp, Nat.add_comm]
  · simp [hp]

theorem tentatives_del {es : SMap Entry} {h : Nat} {e : Entry} (h0 : SMap.get? es h = some e) :
    tentatives es = tentatives (SMap.del es h) + if e.phase = .tentative then 1 else 0 := by
  induction es with
  | nil => cases h0
  | cons y t ih =>
    simp only [SMap.get?] at h0
    simp only [SMap.del]
    split
    · rename_i he; rw [if_pos he, Option.some.injEq] at h0; subst h0; rw [tentatives_cons, Nat.add_comm]
    · rename_i hne; rw [if_neg hne] at h0; rw [tentatives_cons, tentatives_cons, ih h0]; dsimp only; omega

/-- R8: what an entry's removal keeps, after updates that keep its phase. -/
theorem removeEntry_still {s t : State} (k : Held s t) {h : Nat} {e : Entry} (h0 : s.entry? h = some e) :
    Still s (t.removeEntry h e) := by
  unfold State.removeEntry
  refine Still.trans ?_ ((inc_held _ _).trans (compareTable_held _)).toStill
  refine ⟨⟨k.pending, k.params, k.prefixes, k.freeReads, k.requests, k.health, k.sends, k.queues, fun hs => ?_, k.flags, k.counts⟩,
    k.active, k.epoch, k.decl⟩
  have hp := k.phase? hs h
  rw [h0] at hp
  obtain ⟨e1, he, hp⟩ := Option.map_eq_some_iff.mp hp
  obtain ⟨h1, h2, h3, h4, h5⟩ := k.table hs
  have hl := length_del he
  have ht := tentatives_del he
  refine ⟨smap_wf_del _ h1, smap_wf_del _ (smap_wf_del _ h2), fun x hx => h3 x (mem_del hx), ?_, ?_⟩
  · show t.table.occupancy - 1 = (SMap.del t.table.entries h).length
    omega
  · show (if e.phase = .tentative then t.table.tentative - 1 else t.table.tentative) = tentatives (SMap.del t.table.entries h)
    rw [hp] at ht
    split
    · rename_i hc; rw [if_pos hc] at ht; omega
    · rename_i hc; rw [if_neg hc] at ht; omega

theorem freeEntry_still (s : State) (h : Nat) : Still s (s.freeEntry h) := by
  unfold State.freeEntry
  split
  · exact .refl s
  · rename_i e he
    have k1 : Held s (if e.waits = 0 then s.releaseWaiters e.blocks else (s.releaseWaiters e.blocks).leaveBlocks h) :=
      .ite (fun _ => releaseWaiters_held s _) (fun _ => (releaseWaiters_held s _).trans (leaveBlocks_held _ h))
    exact removeEntry_still ((((k1.trans (unqueue_held _ h)).trans (settleWalk_held _ h)).trans
      (discardChain_held _ h)).trans (unmark_held _ h)) he

theorem freeAll_still (s : State) (hs : List Nat) : Still s (s.freeAll hs) := .foldl freeEntry_still hs s

theorem put_cons_ne {es : SMap Entry} {k h : Nat} {y e0 e : Entry} (hw : SMap.wf ((k, y) :: es) = true) (hne : k ≠ h)
    (h0 : SMap.get? es h = some e0) : SMap.put ((k, y) :: es) h e = (k, y) :: SMap.put es h e := by
  have : ¬ h < k := fun hlt => by rw [smap_get_above (b := k) hw (by omega)] at h0; cases h0
  simp only [SMap.put, if_neg this, if_neg (Ne.symm hne)]

theorem wf_tail {x : Nat × Entry} {t : SMap Entry} (hw : SMap.wf (x :: t) = true) : SMap.wf t = true := by
  cases t with
  | nil => rfl
  | cons z u => simp only [SMap.wf, SMap.above, Bool.and_eq_true] at hw ⊢; exact hw.2

/-- The counts of a table after an entry in use is rewritten. -/
theorem put_counts {es : SMap Entry} {h : Nat} {e0 e : Entry} (hw : SMap.wf es = true) (h0 : SMap.get? es h = some e0) :
    (SMap.put es h e).length = es.length ∧
      tentatives (SMap.put es h e) + (if e0.phase = .tentative then 1 else 0) =
        tentatives es + (if e.phase = .tentative then 1 else 0) := by
  induction es with
  | nil => cases h0
  | cons x t ih =>
    obtain ⟨k, y⟩ := x
    by_cases hk : k = h
    · subst hk
      simp only [SMap.get?, if_true, Option.some.injEq] at h0
      subst h0
      have : SMap.put ((k, y) :: t) k e = (k, e) :: t := by simp [SMap.put]
      rw [this, tentatives_cons, tentatives_cons]
      exact ⟨by simp, by dsimp only; omega⟩
    · have ht : SMap.get? t h = some e0 := by simpa [SMap.get?, hk] using h0
      obtain ⟨i1, i2⟩ := ih (wf_tail hw) ht
      rw [put_cons_ne hw hk ht, tentatives_cons, tentatives_cons]
      exact ⟨by simp [i1], by omega⟩

theorem mem_put {es : SMap Entry} {h : Nat} {e : Entry} {x : Nat × Entry} (hx : x ∈ SMap.put es h e) :
    x ∈ es ∨ x = (h, e) := by
  induction es with
  | nil => simp [SMap.put] at hx; exact .inr hx
  | cons y t ih =>
    simp only [SMap.put] at hx
    split at hx
    · rcases List.mem_cons.mp hx with rfl | hx <;> [exact .inr rfl; exact .inl hx]
    · split at hx
      · rcases List.mem_cons.mp hx with rfl | hx <;> [exact .inr rfl; exact .inl (List.mem_cons_of_mem _ hx)]
      · rcases List.mem_cons.mp hx with rfl | hx
        · exact .inl List.mem_cons_self
        · rcases ih hx with h1 | h1 <;> [exact .inl (List.mem_cons_of_mem _ h1); exact .inr h1]

theorem mem_of_get {es : SMap Entry} {h : Nat} {e : Entry} (h0 : SMap.get? es h = some e) : (h, e) ∈ es := by
  induction es with
  | nil => cases h0
  | cons y t ih =>
    obtain ⟨k, y⟩ := y
    simp only [SMap.get?] at h0
    split at h0
    · simp_all
    · exact List.mem_cons_of_mem _ (ih h0)

/-- An entry rewritten between phases that are not TENTATIVE, or within one phase, keeps the invariants of the table. -/
theorem rephase_still (s : State) (h : Nat) {g : Entry → Entry}
    (hg : ∀ e, (g e).phase = .tentative ↔ e.phase = .tentative) : Still s (s.modifyEntry h g) := by
  unfold State.modifyEntry
  split
  · rename_i e he
    refine ⟨⟨rfl, rfl, rfl, rfl, rfl, rfl, onlySends_refl s, id, fun hs => ?_, fun _ h => h,
      fun _ h => ⟨Nat.le_refl _, h⟩⟩, rfl, rfl, rfl⟩
    obtain ⟨h1, h2, h3, h4, h5⟩ := hs
    obtain ⟨c1, c2⟩ := put_counts (e := g e) h1 he
    refine ⟨smap_wf_put _ _ h1, h2, fun x hx => ?_, h4.trans c1.symm, ?_⟩
    · rcases mem_put hx with hx | rfl
      · exact h3 x hx
      · exact h3 (h, e) (mem_of_get he)
    · simp only [hg e] at c2
      show s.table.tentative = tentatives (SMap.put s.table.entries h (g e))
      omega
  · exact .refl s

theorem toRetiring_phase (e : Entry) : e.toRetiring.phase = .tentative ↔ e.phase = .tentative := by
  unfold Entry.toRetiring Entry.phase
  rcases hb : e.body <;> simp [hb]

theorem becomeRetiring_still (s : State) (h : Nat) (e : Entry) : Still s (s.becomeRetiring h e) := by
  unfold State.becomeRetiring
  have k1 : Held s (if e.waits = 0 then s else s.leaveBlocks h) :=
    .ite (fun _ => .refl s) (fun _ => leaveBlocks_held s h)
  have k2 := ((k1.trans (discardChain_held _ h)).trans (unmark_held _ h)).toStill.trans
    (rephase_still _ h toRetiring_phase)
  dsimp only
  split
  · exact k2.trans (setQueued_held _ h _).toStill
  · exact k2.trans (lanePlace_held _ h _ _ _).toStill

theorem retire_still (s : State) (h : Nat) : Still s (s.retire h) := by
  unfold State.retire
  split
  · exact .refl s
  · split
    · exact freeEntry_still s h
    · exact .ite (fun _ => becomeRetiring_still s h _) (fun _ => freeEntry_still s h)
    · exact .refl s
    · exact .refl s

theorem length_put_new {es : SMap Entry} {h : Nat} {e : Entry} (h0 : SMap.get? es h = none) :
    (SMap.put es h e).length = es.length + 1 ∧
      tentatives (SMap.put es h e) = tentatives es + (if e.phase = .tentative then 1 else 0) := by
  induction es with
  | nil => simp [SMap.put, tentatives, List.filter_cons]; split <;> simp_all
  | cons x t ih =>
    obtain ⟨k, y⟩ := x
    simp only [SMap.get?] at h0
    split at h0
    · cases h0
    · rename_i hne
      obtain ⟨i1, i2⟩ := ih h0
      simp only [SMap.put]
      split
      · rw [tentatives_cons]; exact ⟨rfl, Nat.add_comm _ _⟩
      · rw [if_neg (Ne.symm hne), tentatives_cons, tentatives_cons]
        exact ⟨by simp [i1], by omega⟩

/-- R4, R5: a new entry at a free handle keeps the invariants of the table. -/
theorem addEntry_still (s : State) {h : Nat} (e : Entry) (hf : s.entry? h = none) (hh : h < Config.handles) :
    Still s (s.addEntry h e) := by
  refine ⟨⟨rfl, rfl, rfl, rfl, rfl, rfl, onlySends_refl s, id, fun hs => ?_, fun _ h => h,
      fun _ h => ⟨Nat.le_refl _, h⟩⟩, rfl, rfl, rfl⟩
  obtain ⟨h1, h2, h3, h4, h5⟩ := hs
  obtain ⟨c1, c2⟩ := length_put_new (e := e) hf
  refine ⟨smap_wf_put _ _ h1, h2, fun x hx => ?_, ?_, ?_⟩
  · rcases mem_put hx with hx | rfl
    · exact h3 x hx
    · exact hh
  · show s.table.occupancy + 1 = (SMap.put s.table.entries h e).length
    omega
  · show (if e.phase = .tentative then s.table.tentative + 1 else s.table.tentative) = tentatives (SMap.put s.table.entries h e)
    split <;> simp_all

theorem lowestFree_free {es : SMap Entry} {n : Nat} (hw : SMap.wf es = true) (hn : ∀ x ∈ es, n ≤ x.1) :
    SMap.get? es (lowestFree es n) = none := by
  induction es generalizing n with
  | nil => rfl
  | cons x t ih =>
    obtain ⟨k, y⟩ := x
    have hk : n ≤ k := hn (k, y) List.mem_cons_self
    simp only [lowestFree]
    split
    · rename_i hkn
      have ha : ∀ (u : SMap Entry) (b : Nat), SMap.above u b = true → ∀ x ∈ u, b + 1 ≤ x.1 := by
        intro u
        induction u with
        | nil => intro _ _ x hx; cases hx
        | cons z v ihv =>
          intro b hb x hx
          simp only [SMap.above, Bool.and_eq_true, decide_eq_true_eq] at hb
          rcases List.mem_cons.mp hx with rfl | hx
          · exact hb.1
          · have := ihv z.1 hb.2 x hx; omega
      have ht : ∀ x ∈ t, n + 1 ≤ x.1 := fun x hx => by subst hkn; exact ha t k hw x hx
      have hle : ∀ (u : SMap Entry) (m : Nat), m ≤ lowestFree u m := by
        intro u
        induction u with
        | nil => intro m; exact Nat.le_refl _
        | cons z v ihv =>
          intro m
          simp only [lowestFree]
          split
          · have := ihv (m + 1); omega
          · exact Nat.le_refl _
      have := hle t (n + 1)
      rw [SMap.get?, if_neg (by omega)]
      exact ih (wf_tail hw) ht
    · exact smap_get_above (b := n) (by simp only [SMap.above, Bool.and_eq_true, decide_eq_true_eq]; exact ⟨by omega, hw⟩)
        (Nat.le_refl _)

/-- R4: the handle taken is free and a handle of the table. -/
theorem freeHandle_free {s : State} (hs : s.tableOk) {h : Nat} (hh : s.freeHandle = some h) :
    s.entry? h = none ∧ h < Config.handles := by
  unfold State.freeHandle at hh
  dsimp only at hh
  split at hh
  · cases hh
    exact ⟨lowestFree_free hs.1 (fun x _ => Nat.zero_le _), by assumption⟩
  · cases hh

/-- A new entry at the lowest free handle. -/
theorem addFree_still (s : State) {h : Nat} (e : Entry) (hh : s.freeHandle = some h) : Still s (s.addEntry h e) :=
  ⟨⟨rfl, rfl, rfl, rfl, rfl, rfl, onlySends_refl s, id, fun hs =>
    (addEntry_still s e (freeHandle_free hs hh).1 (freeHandle_free hs hh).2).table hs, fun _ h => h,
      fun _ h => ⟨Nat.le_refl _, h⟩⟩, rfl, rfl, rfl⟩

/-! ## Sequence -/

theorem requestRefresh_held (s : State) (h : Nat) : Held s (s.requestRefresh h) := by
  unfold State.requestRefresh
  split
  · exact .refl s
  · split
    · exact .ite (fun _ => .refl s) (fun _ => .ite (fun _ => raiseNeed_held s h _) (fun _ => .refl s))
    · exact .refl s

theorem driftTest_held (s : State) (h : Nat) (d : Dir) : Held s (s.driftTest h d) := by
  unfold State.driftTest
  split
  · split
    · exact .ite (fun _ => requestRefresh_held s h) (fun _ => .refl s)
    · exact .refl s
  · exact .refl s

theorem trackFrame_held (s : State) (h : Nat) (p : Port) (v : SessionView) : Held s (s.trackFrame h p v) := by
  unfold State.trackFrame
  split
  · exact .refl s
  · rename_i e he
    refine .ite (fun _ => .refl s) (fun _ => ?_)
    split
    · rename_i t g d _ _ _
      have k1 : Held s (s.setEntry h { e with tcp := some (t.segment d g).tracking }) := setEntry_held s he rfl
      have k2 := k1.trans (.ite (c := (t.segment d g).anomaly = true) (fun _ => inc_held _ .anomalies) (fun _ => .refl _))
      exact .ite (fun _ => k2.trans (driftTest_held _ h d)) (fun _ => k2)
    · exact .refl s

theorem refreshIdle_held (s : State) (h : Nat) : Held s (s.refreshIdle h) := modifyEntry_held s h (fun _ => rfl)

/-! ## Park Buffer -/

theorem joinRelease_held (s : State) (h : Nat) : Held s (s.joinRelease h) := by
  unfold State.joinRelease
  split
  · exact .ite (fun _ => .refl s) (fun _ => park_held s _)
  · exact .refl s

theorem tallyMark_held (s : State) (how : MarkEnd) : Held s (s.tallyMark how) := by
  unfold State.tallyMark
  cases how
  · exact role_held s rfl rfl
  · refine .trans ?_ (inc_held _ _)
    exact role_held s rfl rfl
  · exact .refl s

theorem clearMark_held (s : State) (h : Nat) (how : MarkEnd) : Held s (s.clearMark h how) :=
  .ite (fun _ => ((tallyMark_held s how).trans (unmark_held _ h)).trans (joinRelease_held _ h)) (fun _ => .refl s)

theorem clearAllMarks_held (s : State) (how : MarkEnd) : Held s (s.clearAllMarks how) :=
  .foldl (fun u h => clearMark_held u h how) _ s

theorem forwardMatched_held (s : State) (h : Nat) (p q : Port) (v : SessionView) (f : Frame) :
    Held s (s.forwardMatched h p q v f) :=
  .ite (fun _ => ((handTx_held s q f).trans (refreshIdle_held _ h)).trans (trackFrame_held _ h p v))
    (fun _ => handTx_held s q f)

theorem tallyParked_held (s : State) : Held s s.tallyParked := .ite (fun _ => role_held s rfl rfl) (fun _ => .refl s)

theorem tallyDropped_held (s : State) : Held s s.tallyDropped := .ite (fun _ => role_held s rfl rfl) (fun _ => .refl s)

theorem takeCells_held (s : State) (n : Nat) : Held s (s.takeCells n) := (park_held s _).trans (comparePark_held _)

theorem parkFrame_held (s : State) (h : Nat) (e : Entry) (p : Port) (f : Frame) : Held s (s.parkFrame h e p f) := by
  unfold State.parkFrame
  refine .ite (fun _ => ?_) (fun _ => (inc_held s _).trans (tallyDropped_held _))
  have k := (((mapLive_held s h (·.append { port := p, cls := .track, bytes := f, cells := cellsOf f })).trans
    (inc_held _ .parked)).trans (tallyParked_held _)).trans (takeCells_held _ (cellsOf f))
  exact .ite (fun _ => k.trans (toUrgentHead_held _ h)) (fun _ => k)

theorem releaseFrame_held (s : State) (h : Nat) (p : Parked) (rest : List Parked) : Held s (s.releaseFrame h p rest) := by
  unfold State.releaseFrame
  have k := (mapLive_held s h (fun l => { l with chain := rest })).trans (freeCells_held _ p)
  dsimp only
  split
  · exact (k.trans (.ite (fun _ => inc_held _ _) (fun _ => .refl _))).trans (forwardMatched_held _ h _ _ _ _)
  · exact (k.trans (.ite (fun _ => inc_held _ _) (fun _ => .refl _))).trans (handTx_held _ _ _)

theorem releaseFrames_held (n : Nat) (s : State) (h : Nat) : Held s (State.releaseFrames n s h) := by
  induction n generalizing s with
  | zero => exact .refl s
  | succ n ih =>
    unfold State.releaseFrames
    split
    · exact (releaseFrame_held s h _ _).trans (ih _)
    · exact .refl s

theorem endTurn_held (s : State) (h : Nat) : Held s (s.endTurn h) := by
  unfold State.endTurn
  split
  · exact .ite (fun _ => mapLive_held s h _) (fun _ => joinRelease_held s h)
  · exact .refl s

theorem releaseTurn_held (s : State) : Held s s.releaseTurn := by
  unfold State.releaseTurn
  refine .ite (fun _ => ?_) (fun _ => .refl s)
  split
  · exact .refl s
  · exact ((park_held s _).trans (releaseFrames_held _ _ _)).trans (endTurn_held _ _)

theorem parkAge_held (s : State) (h : Nat) : Held s (s.parkAge h) := by
  unfold State.parkAge
  split
  · exact .ite (fun _ => .ite (fun _ => mapLive_held s h _) (fun _ => clearMark_held s h _)) (fun _ => .refl s)
  · exact .refl s

theorem parkSweep_held (s : State) : Held s s.parkSweep := (sweepers_held s _).trans (.foldl parkAge_held _ _)

/-! ## Mirror -/

theorem sendBatch_held (s : State) (b : Bool) (rs : List BatchRecord) (pl : List Byte) : Held s (s.sendBatch b rs pl) := by
  unfold State.sendBatch
  dsimp only
  split
  · exact ((mirror_held s _).trans (inc_held _ _)).trans (sendTo_held _ _ _ _ _ _ _)
  · exact (mirror_held s _).trans (inc_held _ _)

theorem takeInto_held (n : Word16) (s : State) (h : Nat) : Held s (State.takeInto n s h) :=
  (unqueue_held s h).trans (mapMirror_held _ h _)

theorem packBatch_held (s : State) : Held s s.packBatch :=
  .ite (fun _ => (Held.foldl (takeInto_held _) _ s).trans (sendBatch_held _ _ _ _)) (fun _ => .refl s)

theorem clearInflight_held (s : State) (h : Nat) : Held s (s.clearInflight h) := mapMirror_held s h _

theorem putBackOne_held (s : State) (r : BatchRecord) : Held s (s.putBackOne r) := by
  unfold State.putBackOne
  split
  · exact .refl s
  · exact (clearInflight_held s _).trans (lanePlace_held _ _ _ _ _)

theorem putBack_held (s : State) (rs : List BatchRecord) : Held s (s.putBack rs) := .foldl putBackOne_held _ s

theorem returnRecords_held (s : State) (rs : List BatchRecord) : Held s (s.returnRecords rs) :=
  .ite (fun _ => .foldl (fun u r => clearInflight_held u r.handle) rs s) (fun _ => putBack_held s rs)

theorem timeoutOne_held (s : State) (b : Batch) : Held s (s.timeoutOne b) := by
  unfold State.timeoutOne
  have k := (mirror_held s { s.mirror with timeouts := satInc s.mirror.timeouts 255 }).trans (inc_held _ .batchTimeouts)
  exact .ite (fun _ => k) (fun _ => k.trans (returnRecords_held _ _))

theorem stall_held (s : State) : Held s s.stall :=
  ((mirror_held s _).trans (.foldl (fun u (b : Batch) => putBack_held u b.records) _ _)).trans (raise_held _ _ _)

theorem releaseAll_held (s : State) : Held s s.releaseAll := by
  unfold State.releaseAll
  have k := clearAllMarks_held s .released
  exact .ite (fun _ => k.trans (role_held _ rfl rfl)) (fun _ => k)

theorem stallTest_held (s : State) : Held s s.stallTest := by
  unfold State.stallTest
  refine .ite (fun _ => ?_) (fun _ => .refl s)
  split <;> first | exact stall_held s | exact releaseAll_held s | exact .refl s

theorem confirmSweep_held (s : State) : Held s s.confirmSweep := by
  unfold State.confirmSweep
  dsimp only
  have k1 := (sweepers_held s { s.sweepers with confirm := s.param .confirmSweep }).trans (mirror_held _ { s.mirror with
    slots := (s.mirror.slots.filter (fun b => decide (b.age < 2))).map (fun b => { b with age := b.age + 1 }) })
  have k2 := k1.trans (.foldl timeoutOne_held (s.mirror.slots.filter (fun b => decide (2 ≤ b.age))) _)
  have k3 := k2.trans (.ite (c := (s.mirror.slots.filter (fun b => decide (2 ≤ b.age))).isEmpty = true)
    (fun _ => .refl _) (fun _ => stallTest_held _))
  exact .ite (fun _ => k3.trans (sendBatch_held _ _ _ _)) (fun _ => k3)

theorem abandonMirror_still (s : State) (t : Option Fw) (st : MirrorState) (n : Nat) (b : Bool) :
    Still s (s.abandonMirror t st n b) :=
  ((mapEntries_held s phase_forget).trans (mirror_held _ _)).toStill.trans (freeAll_still _ _)

theorem walkStart_still (s : State) (f : Fw) : Still s (s.walkStart f) :=
  (abandonMirror_still s _ _ _ _).trans ((sendBatch_held _ _ _ _).trans (inc_held _ _)).toStill

theorem targetLoss_still (s : State) : Still s s.targetLoss := abandonMirror_still s _ _ _ _

theorem mirrorTransfer_held (s : State) (f : Fw) : Held s (s.mirrorTransfer f) :=
  (mapEntries_held s (fun e => phase_mapMirror e _)).trans (mirror_held _ _)

theorem walkExamine_held (s : State) (h : Nat) : Held s (s.walkExamine h) := by
  unfold State.walkExamine
  split
  · refine .ite (fun _ => ?_) (fun _ => .refl s)
    exact ((lanePlace_held s h _ _ _).trans (mapMirror_held _ h _)).trans (mirror_held _ _)
  · exact .refl s

theorem walkStep_held (s : State) : Held s s.walkStep :=
  .ite (fun _ => (walkExamine_held s _).trans (mirror_held _ _)) (fun _ => .refl s)

theorem mirrorPulse_still (s : State) (f : Fw) : Still s (s.mirrorPulse f) :=
  .ite (fun _ => walkStart_still s f) (fun _ => .refl s)

theorem putFromOther_held (s : State) (h : Nat) : Held s (s.putFromOther h) := by
  unfold State.putFromOther
  have k1 := mapLive_held s h (fun l => { l with unprotected := false })
  refine .ite (fun _ => k1) (fun _ => ?_)
  refine .trans ?_ (raiseNeed_held _ h _)
  split
  · exact .ite (fun _ => (k1.trans (mapMirror_held _ h _)).trans (settleWalk_held _ h))
      (fun _ => k1.trans (mapMirror_held _ h _))
  · exact k1.trans (mapMirror_held _ h _)

theorem putFromTarget_held (s : State) (h : Nat) : Held s (s.putFromTarget h) := by
  unfold State.putFromTarget
  exact ((unqueue_held s h).trans (modifyEntry_held _ h (fun e => by simp))).trans (clearMark_held _ h _)

theorem declareAccepted_held (s : State) (r : BatchRecord) (n : Note) : Held s (s.declareAccepted r n) :=
  (modifyEntry_held s _ (fun e => by simp)).trans (inc_held _ _)

theorem declareRefused_held (s : State) (r : BatchRecord) (st : SyncStatus) (n : Word16) :
    Held s (s.declareRefused r st n) := by
  unfold State.declareRefused
  refine .trans (.trans (.ite (fun _ => ?_) (fun _ => .refl s)) (inc_held _ _)) (raise_held _ _ _)
  exact (unqueue_held s _).trans (mapLive_held _ _ _)

theorem settleWalkOf_held (s : State) (r : BatchRecord) : Held s (s.settleWalkOf r) :=
  .ite (fun _ => settleWalk_held s _) (fun _ => .refl s)

theorem declareSettled_held (s : State) (r : BatchRecord) (n : Note) (st : SyncStatus) (q : Word16) :
    Held s ((if n = .owned then s.inc .recordsRefused else s.declareRefused r st q).settleWalkOf r) := by
  refine .trans ?_ (settleWalkOf_held _ r)
  split
  · exact inc_held s _
  · exact declareRefused_held s r st q

theorem settleRecord_still (s : State) (r : BatchRecord) (n : Note) (st : SyncStatus) (q : Word16) :
    Still s (s.settleRecord r n st q) := by
  have hf : ∀ c, Still s ((s.freeEntry r.handle).inc c) := fun c => (freeEntry_still s _).trans (inc_held _ _).toStill
  have hr := (inc_held s .recordsRefused).toStill
  have ha : Still s ((s.modifyEntry r.handle (·.mapMirror (·.takeSnapshot r.edges))).inc .recordsAccepted) :=
    ((mapMirror_held s _ _).trans (inc_held _ _)).toStill
  have hd : Still s ((s.declareAccepted r n).settleWalkOf r) :=
    ((declareAccepted_held s r n).trans (settleWalkOf_held _ r)).toStill
  have hx := fun st => (declareSettled_held s r n st q).toStill
  unfold State.settleRecord
  cases r.kind <;> cases st
  exacts [hd, hx _, hx _, ha, hr, hr, hf _, hf _, hf _]

theorem offerMark_held (s : State) (r : BatchRecord) (n : Note) (st : SyncStatus) : Held s (s.offerMark r n st) := by
  unfold State.offerMark
  split
  · exact .refl s
  · split
    · refine .ite (fun _ => clearMark_held s _ _) (fun _ => .ite (fun _ => ?_) (fun _ => .refl s))
      exact .ite (fun _ => .ite (fun _ => raiseNeed_held s _ _) (fun _ => .refl s)) (fun _ => clearMark_held s _ _)
    · exact .refl s

theorem applyStatus_still (s : State) (n : Word16) (r : BatchRecord) (st : SyncStatus) : Still s (s.applyStatus n r st) := by
  unfold State.applyStatus
  split
  · exact .refl s
  · exact ((clearInflight_held s _).toStill.trans (settleRecord_still _ _ _ _ _)).trans (offerMark_held _ _ _ _).toStill

theorem applyStatuses_still (n : Word16) (s : State) (rs : List BatchRecord) (bs : List Byte) :
    Still s (State.applyStatuses n s rs bs) := by
  induction rs generalizing s bs with
  | nil => exact .refl s
  | cons r rs ih =>
    cases bs with
    | nil => exact (returnRecords_held s _).toStill
    | cons b bs => exact (applyStatus_still s n r _).trans (ih _ _)

theorem syncAck_still (s : State) (n : Word16) (bs : List Byte) : Still s (s.syncAck n bs) := by
  unfold State.syncAck
  split
  · exact (inc_held s _).toStill
  · exact (mirror_held s _).toStill.trans (applyStatuses_still _ _ _ _)

end Sys2Proof.Laws
end

