-- ==== Sys2Proof/Laws/Moves.lean ====
section
/-! SUPPORT. The frames of the operations of roles, health, declarations, the frame path and management. `Moved` is `Kept`
with the active role either as it was or moved once, the epoch counting the move. -/

namespace Sys2Proof.Laws

open Sys2Proof Sys2Proof.Machine

/-- `Kept`, with the active role as it was or moved to the other firewall, and the epoch counting the move. -/
structure Moved (s t : State) : Prop extends Kept s t where
  moves : (t.role.active = s.role.active ∧ t.role.epoch = s.role.epoch) ∨
    (t.role.active = s.role.active.other ∧ t.role.epoch = s.role.epoch + 1)

variable {s t u : State}

theorem Still.moved (h : Still s t) : Moved s t := ⟨h.toKept, .inl ⟨h.active, h.epoch⟩⟩

theorem Moved.refl (s : State) : Moved s s := (Still.refl s).moved

theorem Moved.then (h : Moved s t) (k : Still t u) : Moved s u :=
  ⟨h.toKept.trans k.toKept, h.moves.imp (fun m => ⟨k.active.trans m.1, k.epoch.trans m.2⟩)
    (fun m => ⟨k.active.trans m.1, k.epoch.trans m.2⟩)⟩

theorem Still.then (h : Still s t) (k : Moved t u) : Moved s u :=
  ⟨h.toKept.trans k.toKept, by
    have := k.moves
    rw [h.active, h.epoch] at this
    exact this⟩

theorem Moved.ite {c : Prop} [Decidable c] {a b : State} (ha : c → Moved s a) (hb : ¬c → Moved s b) :
    Moved s (if c then a else b) := by split <;> rename_i h <;> [exact ha h; exact hb h]

/-! ## Roles that stay -/

theorem openCutover_held (s : State) (k : CutKind) (r : CutReason) : Held s (s.openCutover k r) := role_held s rfl rfl

theorem prePushOne_held (s : State) (h : Nat) : Held s (s.prePushOne h) := by
  unfold State.prePushOne
  split
  · exact .refl s
  · split
    · exact .refl s
    · refine .ite (fun _ => .refl s) (fun _ => ?_)
      split
      · exact toUrgentTail_held s h
      · exact .refl s
      · refine .ite (fun _ => .refl s) (fun _ => .ite (fun _ => ?_) (fun _ => lanePlace_held s _ _ _ _))
        exact .ite (fun _ => lanePlace_held s _ _ _ _) (fun _ => .refl s)
    · exact .ite (fun _ => toUrgentTail_held s h) (fun _ => .refl s)

theorem prePush_held (s : State) : Held s s.prePush := .foldl prePushOne_held _ s

theorem beginPlanned_held (s : State) (r : CutReason) : Held s (s.beginPlanned r) := by
  unfold State.beginPlanned
  refine .trans ?_ (prePush_held _)
  refine .trans ?_ (role_held _ rfl rfl)
  refine .trans ?_ (sendTo_held _ _ _ _ _ _ _)
  refine .trans ?_ (raise_held _ _ _)
  exact (openCutover_held s _ _).trans (role_held _ rfl rfl)

theorem preemptTest_held (s : State) : Held s s.preemptTest :=
  .ite (fun _ => beginPlanned_held s _) (fun _ => .refl s)

theorem evalFitness_held (s : State) : Held s s.evalFitness := role_held s rfl rfl

theorem retarget_still (s : State) : Still s s.retarget := by
  unfold State.retarget
  split
  · exact .ite (fun _ => .refl s) (fun _ => walkStart_still s _)
  · exact .ite (fun _ => .refl s) (fun _ => targetLoss_still s)

theorem endSettle_still (s : State) : Still s s.endSettle := by
  unfold State.endSettle
  refine .trans (.trans ?_ (retarget_still _)) (preemptTest_held _).toStill
  refine Held.toStill (.trans ?_ (raise_held _ _ _))
  refine .trans (clearAllMarks_held s .released) ?_
  exact role_held _ rfl rfl

theorem endWalk_held (s : State) : Held s s.endWalk :=
  ((mirror_held s _).trans (raise_held _ _ _)).trans (preemptTest_held _)

theorem finish_still (s : State) : Still s s.finish := by
  unfold State.finish
  have k : Still s (if s.settleDone then s.endSettle else s) := .ite (fun _ => endSettle_still s) (fun _ => .refl s)
  exact .ite (fun _ => k.trans (endWalk_held _).toStill) (fun _ => k)

theorem setMark_held (s : State) (h : Nat) : Held s (s.setMark h) := by
  unfold State.setMark
  refine .trans ?_ (mapLive_held _ h _)
  exact role_held s rfl rfl

theorem pushMarked_held (s : State) (h : Nat) (m : MirrorPart) : Held s (s.pushMarked h m) := by
  unfold State.pushMarked
  split
  · exact toUrgentTail_held s h
  · exact .refl s
  · exact .ite (fun _ => .refl s) (fun _ => lanePlace_held s _ _ _ _)

theorem markOne_held (s : State) (h : Nat) : Held s (s.markOne h) := by
  unfold State.markOne
  split
  · exact .refl s
  · split
    · exact .ite (fun _ => (setMark_held s h).trans (pushMarked_held _ h _)) (fun _ => .refl s)
    · exact .refl s

theorem moveBlocker_held (s : State) (h : Nat) : Held s (s.moveBlocker h) := by
  unfold State.moveBlocker
  split
  · exact .refl s
  · exact .ite (fun _ => toUrgentTail_held s h) (fun _ => .refl s)

theorem markEntries_held (s : State) : Held s s.markEntries :=
  (Held.foldl markOne_held _ s).trans (.foldl moveBlocker_held _ _)

theorem recordTransfer_held (s : State) : Held s s.recordTransfer := by
  unfold State.recordTransfer
  refine .trans ?_ (inc_held _ _)
  exact role_held s rfl rfl

theorem goDark_held (s : State) (n : Nat) : Held s (s.goDark n) := by
  unfold State.goDark
  refine .trans ?_ (raise_held _ _ _)
  exact role_held s rfl rfl

theorem raiseAbort_held (s : State) (ph : CutPhase) : Held s (s.raiseAbort ph) := (raise_held s _ _).trans (inc_held _ _)

theorem dropTarget_still (s : State) : Still s s.dropTarget := .ite (fun _ => .refl s) (fun _ => targetLoss_still s)

theorem abortQuiesce_still (s : State) : Still s s.abortQuiesce := by
  unfold State.abortQuiesce
  refine .trans (.trans ?_ (retarget_still _)) (preemptTest_held _).toStill
  refine Held.toStill (.trans ?_ (raiseAbort_held _ _))
  exact role_held s rfl rfl

theorem unmarkAll_held (s : State) : Held s s.unmarkAll := .foldl unmark_held _ s

theorem discardAll_held (s : State) : Held s s.discardAll := (Held.foldl discardChain_held _ s).trans (park_held _ _)

theorem secondDark_still (s : State) : Still s s.secondDark := by
  unfold State.secondDark
  refine .trans ?_ (preemptTest_held _).toStill
  refine .trans ?_ (raiseAbort_held _ _).toStill
  refine .trans ?_ (goDark_held _ _).toStill
  refine .trans ?_ (dropTarget_still _)
  refine Held.toStill (.trans ((unmarkAll_held s).trans (discardAll_held _)) ?_)
  exact role_held _ rfl rfl

/-! ## Moves of the active role -/

/-- R153 steps 2 to 6: the active role moves and the epoch counts it. -/
theorem moveActive_moved (s : State) : Moved s (s.moveActive s.role.active.other) := by
  unfold State.moveActive
  refine Moved.then ?_ (mirrorTransfer_held _ _).toStill
  exact ⟨⟨rfl, rfl, rfl, rfl, rfl, rfl, onlySends_refl s, id, id, fun _ h => h, fun _ h => ⟨Nat.le_refl _, h⟩⟩, .inr ⟨rfl, rfl⟩⟩

theorem makeTransfer_moved (s : State) : Moved s s.makeTransfer := by
  unfold State.makeTransfer
  refine Moved.then ?_ (finish_still _)
  refine Moved.then ?_ (toSettle_held _).toStill
  refine Moved.then ?_ (recordTransfer_held _).toStill
  refine Moved.then ?_ (markEntries_held _).toStill
  exact (moveActive_moved s).then (freeAll_still _ _)

theorem unplanned_moved (s : State) (r : CutReason) : Moved s (s.unplanned r) := by
  unfold State.unplanned
  exact Still.then ((openCutover_held s _ _).trans (raise_held _ _ _)).toStill (makeTransfer_moved _)

theorem loseSource_moved (s : State) : Moved s s.loseSource := by
  unfold State.loseSource
  refine Still.then (Held.toStill ?_) (makeTransfer_moved _)
  exact role_held s rfl rfl

theorem cutBack_moved (s : State) : Moved s s.cutBack := by
  unfold State.cutBack
  refine Moved.then ?_ (finish_still _)
  refine Moved.then ?_ (raiseAbort_held _ _).toStill
  refine Moved.then ?_ (dropTarget_still _)
  have k : Moved s { s with decl := s.decl.set s.role.active.other none, role := { s.role with
      active := s.role.active.other, epoch := s.role.epoch + 1, holdDown := .start (s.param .holdDown) } } :=
    ⟨⟨rfl, rfl, rfl, rfl, rfl, rfl, onlySends_refl s, id, id, fun _ h => h, fun _ h => ⟨Nat.le_refl _, h⟩⟩, .inr ⟨rfl, rfl⟩⟩
  refine (k.then (clearAllMarks_held _ .released).toStill).then (Held.toStill ?_)
  exact role_held _ rfl rfl

theorem activeChanged_moved (s : State) (n : HealthState) : Moved s (s.activeChanged n) := by
  unfold State.activeChanged
  refine .ite (fun _ => ?_) (fun _ => .ite (fun _ => ?_) (fun _ => .refl s))
  rotate_left
  · refine Still.moved (Held.toStill ?_)
    exact role_held s rfl rfl
  split
  · exact .ite (fun _ => unplanned_moved s _) (fun _ => (goDark_held s 1).toStill.moved)
  · exact loseSource_moved s
  · exact .ite (fun _ => cutBack_moved s) (fun _ => (secondDark_still s).moved)
  · exact .ite (fun _ => cutBack_moved s) (fun _ => (secondDark_still s).moved)

theorem endLate_held (s : State) (f : Fw) (n : HealthState) : Held s (s.endLate f n) :=
  .ite (fun _ => role_held s rfl rfl) (fun _ => .refl s)

theorem otherChanged_moved (s : State) (f : Fw) (n : HealthState) : Moved s (s.otherChanged f n) := by
  unfold State.otherChanged
  refine .ite (fun _ => unplanned_moved s _) (fun _ => Still.moved ((endLate_held s f n).toStill.trans ?_))
  dsimp only
  split
  · exact retarget_still _
  · exact .ite (fun _ => abortQuiesce_still _) (fun _ => retarget_still _)
  · exact .refl _
  · exact .refl _

theorem healthChanged_moved (s : State) (f : Fw) (n : HealthState) : Moved s (s.healthChanged f n) := by
  unfold State.healthChanged
  refine Moved.then ?_ (evalFitness_held _).toStill
  exact .ite (fun _ => activeChanged_moved s n) (fun _ => otherChanged_moved s f n)

theorem fitnessTaken_held (s : State) : Held s s.fitnessTaken := (evalFitness_held s).trans (preemptTest_held _)

theorem startupTest_moved (s : State) : Moved s s.startupTest := by
  unfold State.startupTest
  split
  · exact unplanned_moved s _
  · exact .refl s

theorem judgeSwitchover_still (s : State) (b : Bool) : Still s (s.judgeSwitchover b).2 := by
  unfold State.judgeSwitchover
  split
  · exact .refl s
  · split
    · exact .refl s
    · split
      · exact .refl s
      · exact asEvent_still (body := fun t => t.beginPlanned .switchover) (beginPlanned_held s _).toStill

theorem rejoinChain_held (s : State) (h : Nat) : Held s (s.rejoinChain h) := by
  unfold State.rejoinChain
  split
  · exact .ite (fun _ => .refl s)
      (fun _ => ((leaveRelease_held s h).trans (mapLive_held _ h _)).trans (toUrgentHead_held _ h))
  · exact .refl s

theorem reMark_held (s : State) (h : Nat) : Held s (s.reMark h) := by
  unfold State.reMark
  refine .ite (fun _ => ?_) (fun _ => .refl s)
  refine .trans (.trans ?_ (toUrgentTail_held _ h)) (rejoinChain_held _ h)
  refine .trans (setMark_held s h) ?_
  exact role_held _ rfl rfl

/-! ## Health -/

theorem raiseHealth_held (s : State) (f : Fw) (old new : HealthState) : Held s (s.raiseHealth f old new) := by
  unfold State.raiseHealth
  split
  · exact .ite (fun _ => .refl s) (fun _ => raise_held s _ _)
  · exact .ite (fun _ => .refl s) (fun _ => raise_held s _ _)
  all_goals exact .refl s

theorem handChange_moved (s : State) (f : Fw) (n : HealthState) (a b : RoleName) : Moved s (s.handChange f n a b) :=
  (Moved.then (healthChanged_moved s f n) (finish_still _)).then (sendRoleChanges_held _ _ _ _).toStill

theorem handIfChanged_moved (s s0 : State) (f : Fw) : Moved s (s.handIfChanged s0 f) :=
  .ite (fun _ => .refl s) (fun _ => handChange_moved s _ _ _ _)

theorem countMismatch_held (s : State) (f : Fw) : Held s (s.countMismatch f) :=
  .ite (fun _ => .refl s) (fun _ => inc_held s _)

/-! ## Declarations -/

theorem raiseGap_held (s : State) (f : Fw) (a b : Word16) : Held s (s.raiseGap f a b) := raise_held s _ _

theorem refuseRecord_held (s : State) (f : Fw) (q : Word16) (n : Nat) (w : RefusalReason) (k : Option Key) :
    Held s (s.refuseRecord f q n w k) := (raise_held s _ _).trans (inc_held _ _)

theorem absorb_still (s : State) (h : Nat) (r : DeclRecord) : Still s (s.absorb h r) := by
  unfold State.absorb
  split
  · exact .refl s
  · split
    · exact .refl s
    · refine .trans (Held.toStill ?_) (freeEntry_still _ _)
      exact modifyEntry_held s h (fun _ => rfl)

theorem remap_still (s : State) (h : Nat) (r : DeclRecord) : Still s (s.remap h r) :=
  ((absorb_still s h r).trans (placeKey_held _ _ _ _).toStill).trans (setWaits_held _ _ _).toStill

theorem putReplace_still {f : Fw} {r : DeclRecord} {h n : Nat} {e : Entry} (hp : s.putReplace f r h e = .ok (n, t)) :
    Still s t := by
  unfold State.putReplace at hp
  split at hp
  · cases hp; exact (modifyEntry_held s h (fun e => phase_replace e r f)).toStill
  · split at hp
    · cases hp
    · split at hp
      · cases hp
      · split at hp
        · cases hp
        · cases hp
          exact (remap_still s h r).trans (modifyEntry_held _ h (fun e => phase_replace e r f)).toStill

theorem promote_phase (e : Entry) (r : DeclRecord) (f : Fw) : (e.promote r f).phase = .live := rfl

/-- R5, R59: a promotion moves an entry from TENTATIVE to LIVE, and the tentative count with it. -/
theorem promote_still (s : State) (h : Nat) (r : DeclRecord) (f : Fw) (hp : s.phase h = .tentative) :
    Still s { s.modifyEntry h (·.promote r f) with
      table := { (s.modifyEntry h (·.promote r f)).table with
        tentative := (s.modifyEntry h (·.promote r f)).table.tentative - 1 } } := by
  unfold State.phase at hp
  split at hp
  · rename_i e he
    have hm : s.modifyEntry h (·.promote r f) = s.setEntry h (e.promote r f) := by simp [State.modifyEntry, he]
    rw [hm]
    refine ⟨⟨rfl, rfl, rfl, rfl, rfl, rfl, onlySends_refl s, id, fun hs => ?_, fun _ h => h,
      fun _ h => ⟨Nat.le_refl _, h⟩⟩, rfl, rfl, rfl⟩
    obtain ⟨h1, h2, h3, h4, h5⟩ := hs
    obtain ⟨c1, c2⟩ := put_counts (e := e.promote r f) h1 he
    refine ⟨smap_wf_put _ _ h1, h2, fun x hx => ?_, h4.trans c1.symm, ?_⟩
    · rcases mem_put hx with hx | rfl
      · exact h3 x hx
      · exact h3 (h, e) (mem_of_get he)
    · rw [if_pos hp, if_neg (by rw [promote_phase]; decide)] at c2
      show s.table.tentative - 1 = tentatives (SMap.put s.table.entries h (e.promote r f))
      omega
  · cases hp

theorem holderIn_phase {k : Key} {ph : Phase} {h : Nat} (hh : s.holderIn k ph = some h) : s.phase h = ph := by
  have := List.find?_some hh
  simpa using this

theorem putPromote_still {f : Fw} {r : DeclRecord} {h n : Nat} (hh : s.phase h = .tentative)
    (hp : s.putPromote f r h = .ok (n, t)) : Still s t := by
  unfold State.putPromote at hp
  split at hp
  · cases hp
  · split at hp
    · cases hp
    · cases hp
      refine .trans (.trans ?_ (setWaits_held _ _ _).toStill) (inc_held _ _).toStill
      refine .trans (promote_still s h r f hh) (Held.toStill ?_)
      exact placeKey_held _ h .inside r.insideKey

theorem putAllocate_still {f : Fw} {r : DeclRecord} {n : Nat} (hp : s.putAllocate f r = .ok (n, t)) : Still s t := by
  unfold State.putAllocate at hp
  split at hp
  · cases hp
  · rename_i h hh
    split at hp
    · cases hp
    · split at hp
      · cases hp
      · cases hp
        refine .trans ?_ (compareTable_held _).toStill
        refine .trans ?_ (inc_held _ _).toStill
        refine .trans ?_ (setWaits_held _ _ _).toStill
        exact ((addFree_still s _ hh).trans (placeKey_held _ _ _ _).toStill).trans (placeKey_held _ _ _ _).toStill

theorem put_still {f : Fw} {r : DeclRecord} {n : Nat} (hp : s.put f r = .ok (n, t)) : Still s t := by
  unfold State.put at hp
  split at hp
  · split at hp
    · exact putReplace_still hp
    · cases hp
  · split at hp
    · rename_i h hh
      exact putPromote_still (holderIn_phase hh) hp
    · split at hp
      · cases hp
      · exact putAllocate_still hp

theorem handOnPut_held (s : State) (f : Fw) (h : Nat) : Held s (s.handOnPut f h) := by
  unfold State.handOnPut
  have k : Held s (if (s.inc .declAccepted).mirror.target = some f then (s.inc .declAccepted).putFromTarget h
      else (s.inc .declAccepted).putFromOther h) :=
    .ite (fun _ => (inc_held s _).trans (putFromTarget_held _ h)) (fun _ => (inc_held s _).trans (putFromOther_held _ h))
  exact .ite (fun _ => k.trans (reMark_held _ h)) (fun _ => k)

theorem drop_still (s : State) (r : DeclRecord) : Still s (s.drop r) := by
  unfold State.drop
  split
  · exact (retire_still s _).trans (inc_held _ _).toStill
  · exact (inc_held s _).toStill

theorem applyRecord_still (s : State) (f : Fw) (q : Word16) (n : Nat) (bs : List Byte) :
    Still s (s.applyRecord f q n bs) := by
  unfold State.applyRecord
  split
  · exact (refuseRecord_held s _ _ _ _ _).toStill
  · refine .ite (fun _ => ?_) (fun _ => drop_still s _)
    split
    · rename_i hp
      exact (put_still hp).trans (handOnPut_held _ _ _).toStill
    · exact (refuseRecord_held s _ _ _ _ _).toStill

theorem walkRecords_still (f : Fw) (q : Word16) (n pos : Nat) (s : State) (bs : List Byte) :
    Still s (State.walkRecords f q n pos s bs).1 := by
  induction n generalizing pos s bs with
  | zero => exact .refl s
  | succ n ih =>
    cases bs with
    | nil => exact .refl s
    | cons b bs =>
      unfold State.walkRecords
      split
      · exact (refuseRecord_held s _ _ _ _ _).toStill
      · exact (applyRecord_still s _ _ _ _).trans (ih _ _ _)

theorem checkSequence_moved (s : State) (f : Fw) (n : Word16) : Moved s (s.checkSequence f n) := by
  unfold State.checkSequence
  dsimp only
  split
  · rename_i r _
    have k : Held s (if r.expected = n then s else s.raiseGap f r.expected n) :=
      .ite (fun _ => .refl s) (fun _ => raiseGap_held s _ _ _)
    exact ⟨k.toKept.trans (decl_kept _ _), .inl ⟨k.active, k.epoch⟩⟩
  · exact ⟨decl_kept s _, .inl ⟨rfl, rfl⟩⟩

theorem takeDeclare_moved (s : State) (f : Fw) (c : Ccf) : Moved s (s.takeDeclare f c) :=
  ((checkSequence_moved s f _).then (walkRecords_still _ _ _ _ _ _)).then (add_held _ _ _).toStill

theorem declareFrom_moved (s : State) (f : Fw) (c : Ccf) : Moved s (s.declareFrom f c) := by
  unfold State.declareFrom
  refine .ite (fun _ => ?_) (fun _ => ((add_held s _ _).trans (raiseWrongRole_held _ _ _)).toStill.moved)
  exact ((takeDeclare_moved s f c).then (finish_still _)).then (sendRoleChanges_held _ _ _ _).toStill

theorem flushedFrom_moved (s : State) (f : Fw) (c : Ccf) : Moved s (s.flushedFrom f c) := by
  unfold State.flushedFrom
  refine .ite (fun _ => ?_) (fun _ => (inc_held s _).toStill.moved)
  have k : Held s (s.compareFlushed f c.seq) := by
    unfold State.compareFlushed
    split
    · exact .ite (fun _ => .refl s) (fun _ => raiseGap_held s _ _ _)
    · exact .refl s
  exact k.toStill.then ((makeTransfer_moved _).then (sendRoleChanges_held _ _ _ _).toStill)

/-! ## Frame path -/

theorem forwardShadow_held (s : State) (p : Port) (f : Frame) : Held s (s.forwardShadow p f) := by
  unfold State.forwardShadow
  dsimp only
  split
  · exact (handTx_held s _ f).trans (handTx_held _ _ f)
  · exact handTx_held s _ f

theorem untrackedSyn_held (s : State) : Held s s.untrackedSyn :=
  .ite (fun _ => inc_held s _) (fun _ => (inc_held s _).trans (raise_held _ _ _))

theorem createTentative_still (s : State) (p : Port) (v : SessionView) {h : Nat} (hh : s.freeHandle = some h) :
    Still s (s.createTentative p v h) :=
  (((addFree_still s _ hh).trans (placeKey_held _ _ _ _).toStill).trans
    ((inc_held _ _).trans (compareTable_held _)).toStill).trans (trackFrame_held _ _ _ _).toStill

theorem afterMiss_still (s : State) (p : Port) (v : SessionView) : Still s (s.afterMiss p v) := by
  unfold State.afterMiss
  refine .ite (fun _ => .refl s) (fun _ => ?_)
  split
  · rename_i h hh
    exact .ite (fun _ => createTentative_still s p v hh) (fun _ => (untrackedSyn_held s).toStill)
  · exact (untrackedSyn_held s).toStill

theorem trackedFrame_still (s : State) (p : Port) (v : SessionView) (f : Frame) : Still s (s.trackedFrame p v f) := by
  unfold State.trackedFrame
  split
  · split
    · exact .ite (fun _ => (parkFrame_held s _ _ _ _).toStill) (fun _ => (forwardMatched_held s _ _ _ _ _).toStill)
    · exact (handTx_held s _ _).toStill
  · exact .ite (fun _ => (handTx_held s _ _).toStill.trans (afterMiss_still _ _ _)) (fun _ => (handTx_held s _ _).toStill)

theorem dataFrame_still (s : State) (p : Port) (f : Frame) : Still s (s.dataFrame p f) := by
  unfold State.dataFrame State.forwardByClass
  refine .ite (fun _ => (inc_held s _).toStill) (fun _ => ?_)
  split
  · exact (inc_held s _).toStill
  · exact (forwardShadow_held s _ _).toStill
  · exact trackedFrame_still s _ _ _
  · exact (handTx_held s _ _).toStill

/-! ## Engines, expiries and management -/

theorem releaseEvent_still (s : State) : Still s s.releaseEvent :=
  .ite (fun _ => asEvent_still ((releaseTurn_held s).toStill.trans (finish_still _))) (fun _ => .refl s)

theorem walkEvent_still (s : State) : Still s s.walkEvent :=
  .ite (fun _ => asEvent_still ((walkStep_held s).toStill.trans (finish_still _))) (fun _ => .refl s)

theorem raiseTag_held (s : State) (h : Nat) : Held s (s.raiseTag h) := by
  unfold State.raiseTag
  exact modifyEntry_held s h (fun _ => rfl)

theorem ageLive_still (c : Fin 4) (s : State) (h : Nat) : Still s (State.ageLive c s h) := by
  unfold State.ageLive
  split
  · exact .refl s
  · refine .ite (fun _ => .ite (fun _ => ?_) (fun _ => (retire_still s h).trans (inc_held _ _).toStill)) (fun _ => .refl s)
    exact (raiseTag_held s h).toStill

theorem classSweep_still (s : State) (c : Fin 4) : Still s (s.classSweep c) :=
  (sweepers_held s _).toStill.trans (.foldl (ageLive_still c) _ _)

theorem ageTentative_still (s : State) (h : Nat) : Still s (State.ageTentative s h) := by
  unfold State.ageTentative
  split
  · exact .refl s
  · refine .ite (fun _ => .ite (fun _ => ?_) (fun _ => (freeEntry_still s h).trans (inc_held _ _).toStill)) (fun _ => .refl s)
    exact (raiseTag_held s h).toStill

theorem tentativeSweep_still (s : State) : Still s s.tentativeSweep :=
  (sweepers_held s _).toStill.trans (.foldl ageTentative_still _ _)

theorem purgeEntry_still (s : State) (h : Nat) : Still s (s.purgeEntry h) :=
  asEvent_still ((retire_still s h).trans (finish_still _))

end Sys2Proof.Laws
end

