-- ==== Sys2Proof/Laws/Sends.lean ====
section
/-! SUPPORT. The operations that only hand frames to transmit queues, count and latch events: everything else stands. -/

namespace Sys2Proof.Laws

open Sys2Proof Sys2Proof.Machine

/-- Only ports, counters and events may differ. -/
def Sends (s t : State) : Prop := t = { s with ports := t.ports, counters := t.counters, events := t.events }

variable {s t u : State}

theorem Sends.refl (s : State) : Sends s s := rfl

theorem Sends.trans (h : Sends s t) (k : Sends t u) : Sends s u := by
  unfold Sends at *
  rw [k, h]

theorem Sends.table (h : Sends s t) : t.table = s.table := by rw [h]

theorem Sends.decl (h : Sends s t) : t.decl = s.decl := by rw [h]

theorem Sends.mirror (h : Sends s t) : t.mirror = s.mirror := by rw [h]

theorem Sends.health (h : Sends s t) : t.health = s.health := by rw [h]

theorem Sends.role (h : Sends s t) : t.role = s.role := by rw [h]

theorem Sends.park (h : Sends s t) : t.park = s.park := by rw [h]

theorem Sends.params (h : Sends s t) : t.params = s.params := by rw [h]

theorem Sends.requests (h : Sends s t) : t.requests = s.requests := by rw [h]

theorem Sends.ite {c : Prop} [Decidable c] {a b : State} (ha : Sends s a) (hb : Sends s b) :
    Sends s (if c then a else b) := by split <;> assumption

theorem handTx_sends (s : State) (p : Port) (f : Frame) : Sends s (s.handTx p f) := by
  rcases handTx_cases s p f with ⟨-, e⟩ | ⟨-, e⟩ <;> rw [e] <;> rfl

theorem sendTo_sends (s : State) (f : Fw) (k : CcfKind) (fl n : Byte) (q : Word16) (pl : List Byte) :
    Sends s (s.sendTo f k fl n q pl) := handTx_sends s _ _

theorem sendRole_sends (s : State) (f : Fw) : Sends s (s.sendRole f) := sendTo_sends s f _ _ _ _ _

theorem sendRoleChanges_sends (s : State) (ph : CutPhase) (a b : RoleName) : Sends s (s.sendRoleChanges ph a b) := by
  unfold State.sendRoleChanges
  have k : ∀ c : Bool, Sends s (if c then s.sendRole .a else s) := fun c => .ite (sendRole_sends s .a) (.refl s)
  exact .ite ((k _).trans (sendRole_sends _ .b)) (k _)

theorem sendNotices_sends (s : State) (ps : List Port) (ev : EventId) (bs : List Byte) : Sends s (s.sendNotices ps ev bs) := by
  unfold State.sendNotices
  induction ps generalizing s with
  | nil => exact .refl s
  | cons p ps ih => exact (handTx_sends s p _).trans (ih _)

/-- R210, R211: an occurrence of an event changes its flag, the transmit queues and TX_DROP, and nothing else. -/
theorem raise_sends (s : State) (ev : EventId) (bs : List Byte) : Sends s (s.raise ev bs) :=
  (show Sends s (s.latch ev) from rfl).trans (sendNotices_sends _ _ _ _)

theorem raiseWrongRole_sends (s : State) (f : Fw) (bs : List Byte) : Sends s (s.raiseWrongRole f bs) :=
  (show Sends s (s.latch .wrongRole) from rfl).trans (sendNotices_sends _ _ _ _)

/-- R210: handing frames over latches nothing. -/
theorem handTx_events (s : State) (p : Port) (f : Frame) : (s.handTx p f).events = s.events := by
  rcases handTx_cases s p f with ⟨-, e⟩ | ⟨-, e⟩ <;> rw [e] <;> rfl

theorem sendNotices_events (s : State) (ps : List Port) (ev : EventId) (bs : List Byte) :
    (s.sendNotices ps ev bs).events = s.events := by
  unfold State.sendNotices
  induction ps generalizing s with
  | nil => rfl
  | cons p ps ih => exact (ih _).trans (handTx_events s p _)

theorem raise_events (s : State) (ev : EventId) (bs : List Byte) : (s.raise ev bs).events = (s.latch ev).events :=
  sendNotices_events _ _ _ _

/-- R215: handing frames over counts nothing but TX_DROP. -/
theorem handTx_count (s : State) (p : Port) (f : Frame) {c : Counter} (hc : c ≠ .txDrop) :
    (s.handTx p f).count c = s.count c := by
  rcases handTx_cases s p f with ⟨-, e⟩ | ⟨-, e⟩ <;> rw [e]
  · rfl
  · rw [count_inc, if_neg hc]

theorem sendNotices_count (s : State) (ps : List Port) (ev : EventId) (bs : List Byte) {c : Counter} (hc : c ≠ .txDrop) :
    (s.sendNotices ps ev bs).count c = s.count c := by
  unfold State.sendNotices
  induction ps generalizing s with
  | nil => rfl
  | cons p ps ih => exact (ih _).trans (handTx_count s p _ hc)

theorem raise_count (s : State) (ev : EventId) (bs : List Byte) {c : Counter} (hc : c ≠ .txDrop) :
    (s.raise ev bs).count c = s.count c := sendNotices_count (s.latch ev) _ _ _ hc

end Sys2Proof.Laws
end

