-- ==== Sys2Proof/Tests/Slice0.lean ====
section
/-! SUPPORT. Our own tests: the smoke test of WellFormed, values worked out in the spec's own text, and for each statement
with hypotheses a concrete state and operands that meet them. -/

namespace Sys2Proof.Tests

set_option Elab.async false

open Sys2Proof Sys2Proof.Machine

/-! ## Helpers -/

/-- A frame's bytes padded to the minimum, with their check sequence. -/
def closed (bs : List Byte) : Frame :=
  let body := bs ++ List.replicate (60 - bs.length) 0#8
  body ++ fcsOf body

def macA : Mac := 0x0A0000000001#48
def macB : Mac := 0x0A0000000002#48

/-- A CCF to the part. -/
def ccf (k : CcfKind) (records : Byte) (seq : Word16) (payload : List Byte) : Frame :=
  ccfFrame 0x024C4A000001#48 macA k 0#8 records seq payload

/-- Addresses and EtherType, then the bytes given. -/
def ether (ty : Nat) (bs : List Byte) : Frame := closed (beMac macA ++ beMac macB ++ be2 ty ++ bs)

/-- A data frame that carries a TCP segment over IPv4, without payload. -/
def tcpFrame (src dst : IpAddr) (sp dp : Word16) (seq ack : Nat) (flags : Byte) (window : Nat) : Frame :=
  ether 0x0800 ([0x45#8, 0#8, 0#8, 40#8, 0#8, 0#8, 0#8, 0#8, 64#8, 6#8, 0#8, 0#8] ++ beBytes 4 src.toNat ++
    beBytes 4 dst.toNat ++ be2 sp.toNat ++ be2 dp.toNat ++ be4 seq ++ be4 ack ++ [0x50#8, flags] ++ be2 window ++
    [0#8, 0#8, 0#8, 0#8])

/-- The worked session of chapters 1 and 12: the office host, its translated address, and the server. -/
def host : Endpoint := { addr := 0x0A01021E#128, port := 51000#16 }
def translated : Endpoint := { addr := 0xC6336407#128, port := 40000#16 }
def server : Endpoint := { addr := 0xCB007114#128, port := 443#16 }

def insideTuple : Tuple := { loc := host, rem := server }
def outsideTuple : Tuple := { loc := translated, rem := server }
def insideKey : Key := tupleKey .v4 .tcp .inside insideTuple
def outsideKey : Key := tupleKey .v4 .tcp .outside outsideTuple

/-- The server's SYN ACK as it reaches WAN, and the host's data as it reaches LAN. -/
def wanFrame : Frame := tcpFrame server.addr translated.addr 443#16 40000#16 5000000 1000001 0x12#8 65160
def lanFrame : Frame := tcpFrame host.addr server.addr 51000#16 443#16 1000001 5000001 0x10#8 502
/-- The host's translated SYN at A-OUT. -/
def synFrame : Frame := tcpFrame translated.addr server.addr 40000#16 443#16 1000000 0 0x02#8 64240

/-- What the classifier reads in the last frame of WAN, LAN and the SYN. -/
def viewOf (f : Frame) : SessionView :=
  match readFrame f with
  | .session v => v
  | _ => { family := .v4, proto := .udp, src := host, dst := host, seg := none }

/-- Every link UP. -/
def linked : State :=
  let up : PortState := { link := .up, tx := [] }
  { State.reset with ports := { lan := up, wan := up, aIn := up, aOut := up, bIn := up, bOut := up } }

/-- A firewall in a health state, its pulse timer running. -/
def healthy (st : HealthState) : HealthRecord :=
  { HealthRecord.reset with state := st, fitness := 8, learned := macA, pulseTimer := .running 100 }

/-- Both firewalls UP, A active and B the mirror target, the mirror STREAMING, the startup wait over. -/
def paired : State :=
  { linked with
    health := { a := healthy .up, b := healthy .up }
    role := { Role.reset with startup := .over }
    mirror := { Mirror.reset with target := some .b, state := .streaming } }

def declared : Declared := { inside := insideTuple, declaredBy := .a, fwState := 3, policy := 7#16, blob := [1#8, 2#8, 3#8, 4#8] }

def tracking : Tracking :=
  { out := { hiSeq := some 1000001#32, hiAck := some 5000001#32, maxWin := some 64240#32 }
    inn := { hiSeq := some 5000001#32, hiAck := some 1000001#32, maxWin := some 65160#32 }
    scaleOut := 7, scaleIn := 7, scaleKnown := true, anomalies := 0 }

/-- The worked session as an entry, with the body given. -/
def entry (b : Body) : Entry :=
  { family := .v4, proto := .tcp, outside := outsideTuple, initiator := .loc, agingClass := 0, idleTag := 0
    tcp := some tracking, body := b }

def mirrored : MirrorPart := { MirrorPart.fresh .tcp with peer := .current }
def parkedFrame : Parked := { port := .wan, cls := .track, bytes := wanFrame, cells := 1 }

/-- The worked session at handle 0, with its slots. -/
def holding (s : State) (e : Entry) : State :=
  ((s.addEntry 0 e).placeKey 0 .inside insideKey).placeKey 0 .outside outsideKey

/-- The worked session LIVE at handle 0. -/
def withLive (s : State) (m : MirrorPart) (l : LivePart) : State := holding s (entry (.live declared m l))

/-- The worked session TENTATIVE at handle 0. -/
def withTentative (s : State) : State := (s.addEntry 0 (entry .tentative)).placeKey 0 .outside outsideKey

/-- A declaration record of the worked session. -/
def record (put : Bool) : DeclRecord :=
  { put := put, family := .v4, proto := .tcp, agingClass := 0, fwState := 3, scales := none, initiator := .loc
    policy := 7#16, inside := insideTuple, outside := outsideTuple, blob := [] }

/-- A request at the head of the queue. -/
def request (code : Byte) (args : List Byte) : Request := { code := code, id := 9#16, args := args, port := .aIn, source := macA }
def asking (s : State) (code : Byte) (args : List Byte) : State := { s with requests := [request code args] }

def streamBatch (h : Nat) : Batch :=
  { serial := 0#16, age := 2, begin := false, records := [{ handle := h, kind := .declare, walk := false, edges := none }] }

theorem ok_wan (s : State) : s.mayEmit .wan := fun _ h => nomatch h
theorem ok_lan (s : State) : s.mayEmit .lan := fun _ h => nomatch h

/-! ## Values from the spec's text -/

/-- The check value of CRC-32 (IEEE 802.3), from the standard itself. -/
theorem test_crc32_check_value :
    crc32 [0x31#8, 0x32#8, 0x33#8, 0x34#8, 0x35#8, 0x36#8, 0x37#8, 0x38#8, 0x39#8] = 0xCBF43926 := by decide +kernel

/-- Chapter 1, the worked keys: buckets 477, 12,430 and, under seed 5A5Ah, 7,047. -/
theorem test_worked_buckets :
    bucketOf 0 outsideKey = 477 ∧ bucketOf 0 insideKey = 12430 ∧ bucketOf 0x5A5A outsideKey = 7047 := by decide +kernel

/-- Chapter 1: the server's reply at WAN builds the outside key. -/
theorem test_reply_has_the_outside_key : frameKey .wan (viewOf wanFrame) = outsideKey := by decide +kernel

/-- Chapter 12, first row: the SYN at A-OUT with window 64,240 and no valid edge. -/
theorem test_syn_opens_out :
    (Tracking.fresh.segment .out ((viewOf synFrame).seg.getD (readSegment []))).tracking.out =
      { hiSeq := some 1000001#32, hiAck := none, maxWin := some 64240#32 } := by decide +kernel

/-- A data segment of the worked example of chapter 2, without acknowledgement. -/
def dataSegment (s : Seq32) (len : Nat) : Segment :=
  { seq := s, ack := 0#32, window := 0#16, syn := false, ackFlag := false, rst := false, fin := false, wscale := none, payload := len }

/-- The entry of the worked example "edges across the wrap" of chapter 2. -/
def wrapping : Tracking :=
  { out := { hiSeq := some 4294960000#32, hiAck := none, maxWin := none }
    inn := { hiSeq := none, hiAck := some 4294950000#32, maxWin := some 131072#32 }
    scaleOut := 0, scaleIn := 7, scaleKnown := true, anomalies := 0 }

def wrapped1 : SegmentResult := wrapping.segment .out (dataSegment 4294960000#32 1460)
def wrapped2 : SegmentResult := wrapped1.tracking.segment .out (dataSegment 4294966000#32 2000)
def wrapped3 : SegmentResult := wrapped2.tracking.segment .out (dataSegment 199000#32 1000)

/-- Chapter 2, edges across the wrap: the three segments and the right edge 113,776. -/
theorem test_edges_across_the_wrap :
    wrapping.rightEdge .out = some 113776#32 ∧ wrapped1.tracking.out.hiSeq = some 4294961460#32 ∧
      wrapped2.tracking.out.hiSeq = some 704#32 ∧ wrapped3.anomaly = true ∧
      wrapped3.tracking.out.hiSeq = some 704#32 ∧ wrapped3.tracking.anomalies = 1 := by decide +kernel

/-- Chapter 2, the drift test of the same example: 61,460 is not over the threshold 65,536, and 68,000 is. -/
theorem test_drift_across_the_wrap :
    edgeDrift wrapped1.tracking.out.hiSeq (some 4294900000#32) = some 61460 ∧
      edgeDrift wrapped2.tracking.out.hiSeq (some 4294900000#32) = some 68000 ∧
      overThreshold wrapped1.tracking
        { out := { hiSeq := some 4294900000#32, hiAck := none }, inn := MirDir.invalid } .out = false ∧
      overThreshold wrapped2.tracking
        { out := { hiSeq := some 4294900000#32, hiAck := none }, inn := MirDir.invalid } .out = true := by decide +kernel

/-- Chapter 2, the acknowledgements of the same example: 800 is beyond hi_seq 704 and 704 is learned. -/
theorem test_acknowledgements_across_the_wrap :
    ((wrapped3.tracking.segment .inn { dataSegment 1#32 0 with ack := 800#32, ackFlag := true }).anomaly = true) ∧
      (wrapped3.tracking.segment .inn { dataSegment 1#32 0 with ack := 704#32, ackFlag := true }).tracking.inn.hiAck =
        some 704#32 := by decide +kernel

/-! ## WellFormed: an ill-formed command for each check -/

theorem test_wf_rxError : (Instr.rxError .lan wanFrame).wf = false ∧ (Instr.rxError .lan []).wf = true := by decide +kernel
theorem test_wf_dataFrame :
    (Instr.dataFrame .lan (ccf .query 0#8 0#16 [8#8])).wf = false ∧ (Instr.dataFrame .lan []).wf = false ∧
      (Instr.dataFrame .lan wanFrame).wf = true := by decide +kernel
theorem test_wf_pulse : (Instr.pulse .aIn (ccf .query 0#8 0#16 [8#8])).wf = false ∧ (Instr.pulse .aIn wanFrame).wf = false := by
  decide +kernel
theorem test_wf_declare : (Instr.declare .aIn (ccf .pulse 0#8 0#16 [8#8])).wf = false := by decide +kernel
theorem test_wf_flushed : (Instr.flushed .aIn (ccf .declare 0#8 0#16 [8#8])).wf = false := by decide +kernel
theorem test_wf_syncAck : (Instr.syncAck .aIn (ccf .flushed 0#8 0#16 [8#8])).wf = false := by decide +kernel
theorem test_wf_query : (Instr.query .aIn (ccf .syncAck 0#8 0#16 [8#8])).wf = false := by decide +kernel
theorem test_wf_refusedCcf : (Instr.refusedCcf .wan wanFrame).wf = false := by decide +kernel

/-! ## The words of the table -/

/-- No row of the opcode table gives bits, so no word spells a command and the state stays. -/
theorem test_no_word_spells_a_command :
    decodeTableWord 16 0 = none ∧ State.reset.withFetchWord 16 0 = State.reset := ⟨rfl, rfl⟩

/-! ## Witnesses: the machine and its invariants -/

theorem test_hyp_StepRunsTheFrontCommand :
    ({ State.reset with pending := [.releaseTurn] } : State).pending = [Instr.releaseTurn] ∧ State.reset.pending = [] :=
  ⟨rfl, rfl⟩

/-- A state for the invariants: a full queue at a port whose link is UP, and commands that wait. -/
def full : State :=
  { paired.setPort .lan { link := .up, tx := List.replicate 64 [] } with pending := [.linkDown .aIn] }

theorem test_full_queues : full.queuesOk := by intro p; cases p <;> decide +kernel

theorem test_full_steps : ∃ t, step full = .next t := ⟨_, rfl⟩

theorem test_hyp_TransmitQueuesStayBounded : full.queuesOk ∧ ∃ t, step full = .next t := ⟨test_full_queues, _, rfl⟩

theorem test_hyp_ParametersStayInTheirRanges : full.paramsOk ∧ ∃ t, step full = .next t :=
  ⟨by decide +kernel, _, rfl⟩

theorem test_hyp_SessionTableStaysCanonical :
    ({ withLive paired mirrored .fresh with pending := [.tentativeSweepExpiry] } : State).tableOk ∧
      ∃ t, step { withLive paired mirrored .fresh with pending := [.tentativeSweepExpiry] } = .next t :=
  ⟨by decide +kernel, _, rfl⟩

/-- R143: the loss of the active firewall moves the active role, so the second case of the statement is reached. -/
theorem test_hyp_EpochCountsTheMovesOfTheActiveRole :
    Instr.linkDown .aIn ≠ .reset ∧ ∃ t, exec (.linkDown .aIn) paired = .next t ∧ t.role.active = .b ∧ t.role.epoch = 1#16 :=
  ⟨by decide, _, rfl, by decide +kernel⟩

/-! ## Witnesses: frames the part builds and reads -/

theorem test_hyp_BuiltCcfReadsBack : (List.replicate 1496 (1#8 : Byte)).length ≤ 1496 := by decide +kernel

theorem test_hyp_DeclarationRecordReadsBack :
    declared.fwState ≤ 15 ∧ declared.blob.length ≤ 64 ∧ declared.blob.length % 4 = 0 ∧
      (∀ x ∈ [declared.inside.loc, declared.inside.rem, (entry .tentative).outside.loc, (entry .tentative).outside.rem],
        (entry .tentative).family = .v4 → x.addr.toNat < 2 ^ 32) ∧
      (∀ x, (entry .tentative).tcp = some x → x.scaleOut ≤ 14 ∧ x.scaleIn ≤ 14) ∧
      ((entry .tentative).proto = .echo → declared.inside.loc.port = declared.inside.rem.port ∧
        (entry .tentative).outside.loc.port = (entry .tentative).outside.rem.port) :=
  ⟨by decide, by decide, by decide, by decide +kernel, (by rintro x ⟨⟩; decide), by intro h; cases h⟩

/-! ## Witnesses: frames that are dropped -/

/-- R68: one byte short, one byte long, and a bad check sequence. -/
theorem test_hyp_FramesAreDropped_bad :
    (wanFrame.drop 1).length = 63 ∧ 1522 < (closed (List.replicate 1519 0#8)).length ∧
      (let f := wanFrame.dropLast ++ [0#8]; f.drop (f.length - 4) ≠ fcsOf (f.take (f.length - 4))) := by decide +kernel

/-- A CCF that carries a VLAN tag. -/
def taggedCcf : Frame := closed (beMac macA ++ beMac macB ++ be2 0x8100 ++ be2 5 ++ be2 0x88B5 ++ [1#8, 0x51#8])
/-- A CCF of version 2. -/
def version2 : Frame := closed (beMac macA ++ beMac macB ++ be2 0x88B5 ++ [2#8, 0x51#8, 0#8, 0#8, 0#8, 0#8, 0#8, 1#8, 8#8])

/-- R71, R72, R185: a CCF at WAN and at LAN with LAN management off; one under a tag; one of version 2 at A-IN. -/
theorem test_hyp_FramesAreDropped_ccf :
    (frameOk (ccf .query 0#8 0#16 [8#8]) = true ∧ isCcf (ccf .query 0#8 0#16 [8#8]) = true ∧
      isUntagged (ccf .query 0#8 0#16 [8#8]) = true ∧ linked.param .lanManagement ≠ 1) ∧
    (frameOk taggedCcf = true ∧ isCcf taggedCcf = true ∧ isUntagged taggedCcf = false) ∧
    (frameOk version2 = true ∧ isCcf version2 = true ∧ isUntagged version2 = true ∧ (readCcf version2).version ≠ 1#8) := by
  decide +kernel

/-! ## Witnesses: data frames -/

theorem test_hyp_StandbyEmissionIsDropped : isDataFrame wanFrame = true ∧ ¬ paired.mayEmit .bIn :=
  ⟨by decide +kernel, fun h => by have := h .b rfl; revert this; decide⟩

/-- A frame that is not IP, and the state with each class as its Non-IP class. -/
def nonIpFrame : Frame := ether 0x0806 []
def classed (n : Nat) : State := paired.setParam .nonIpClass n

/-- R74, R79: a PASS frame from LAN with room and without, a DISCARD frame, and a SHADOW frame with a standby, from LAN and
WAN, without one, and from a firewall port. -/
theorem test_hyp_UntrackedFramesAreSteered_class :
    isDataFrame nonIpFrame = true ∧ (classed 1).classify (readFrame nonIpFrame) = .pass ∧
      (classed 3).classify (readFrame nonIpFrame) = .discard ∧ (classed 2).classify (readFrame nonIpFrame) = .shadow ∧
      (classed 2).usable (classed 2).role.active.other = true ∧ linked.usable .b = false := by decide +kernel

theorem test_hyp_UntrackedFramesAreSteered_ports :
    paired.mayEmit .lan ∧ paired.steersTo .lan .aIn ∧ paired.hasRoom .aIn 1 ∧ paired.hasRoom .bIn 1 ∧
      paired.mayEmit .wan ∧ paired.steersTo .wan .aOut ∧ paired.hasRoom .aOut 1 ∧ paired.hasRoom .bOut 1 ∧
      paired.mayEmit .aOut ∧ paired.steersTo .aOut .wan ∧ paired.hasRoom .wan 1 ∧ ¬ State.reset.hasRoom .aIn 1 :=
  ⟨ok_lan _, .inl ⟨rfl, rfl⟩, ⟨rfl, by decide⟩, ⟨rfl, by decide⟩, ok_wan _, .inr (.inl ⟨rfl, rfl⟩), ⟨rfl, by decide⟩,
    ⟨rfl, by decide⟩, (fun f h => by cases h; exact .inl rfl), .inr (.inr (.inr ⟨.inl rfl, rfl⟩)), ⟨rfl, by decide⟩,
    fun h => by cases h.1⟩

/-- R16, R84: a TRACK frame that matches nothing: at LAN, and a SYN ACK at WAN, which is no qualifying SYN. -/
theorem test_hyp_UntrackedFramesAreSteered_miss :
    isDataFrame lanFrame = true ∧ readFrame lanFrame = .session (viewOf lanFrame) ∧
      paired.classify (.session (viewOf lanFrame)) = .track ∧ paired.lookup (frameKey .lan (viewOf lanFrame)) = none ∧
      readFrame wanFrame = .session (viewOf wanFrame) ∧ (viewOf wanFrame).seg.map (·.ackFlag) = some true := by
  decide +kernel

theorem test_hyp_MatchedFrameIsForwardedAndTracked :
    let s := withLive paired mirrored .fresh
    let e := entry (.live declared mirrored .fresh)
    isDataFrame wanFrame = true ∧ readFrame wanFrame = .session (viewOf wanFrame) ∧
      s.classify (.session (viewOf wanFrame)) = .track ∧ s.lookup (frameKey .wan (viewOf wanFrame)) = some 0 ∧
      s.entry? 0 = some e ∧ e.marked = false ∧ e.chain = [] ∧ trackDir .wan e (viewOf wanFrame) = some .inn ∧
      e.tcp = some tracking ∧ (viewOf wanFrame).seg.isSome = true := by decide +kernel

/-- R19: the SYN at A-OUT, at handle 0 of an empty table. -/
theorem test_hyp_SynOpensATentativeEntry :
    isDataFrame synFrame = true ∧ readFrame synFrame = .session (viewOf synFrame) ∧
      paired.classify (.session (viewOf synFrame)) = .track ∧ paired.lookup (frameKey .aOut (viewOf synFrame)) = none ∧
      (viewOf synFrame).proto = .tcp ∧ ((viewOf synFrame).seg.map fun g => (g.syn, g.ackFlag, g.rst)) = some (true, false, false) ∧
      paired.table.tentative < paired.param .tentativeLimit ∧
      paired.bucketLoad (paired.bucket (frameKey .aOut (viewOf synFrame))) < 4 ∧ paired.entry? 0 = none ∧ paired.tableOk := by
  decide +kernel

/-- R20: the same SYN with the tentative limit at 0, the boundary of its range. -/
theorem test_hyp_SynIsUntracked :
    let s := paired.setParam .tentativeLimit 0
    s.lookup (frameKey .aOut (viewOf synFrame)) = none ∧ s.param .tentativeLimit ≤ s.table.tentative := by decide +kernel

/-- R168 to R170: a marked entry with a chain and room; and with the park limit at 1, its chain full. -/
def marked : LivePart := { LivePart.fresh with marked := true, chain := [parkedFrame], chainAge := 2 }

theorem test_hyp_FrameOfAMarkedEntryParks :
    let s := withLive paired mirrored marked
    isDataFrame wanFrame = true ∧ readFrame wanFrame = .session (viewOf wanFrame) ∧
      s.classify (.session (viewOf wanFrame)) = .track ∧ s.lookup (frameKey .wan (viewOf wanFrame)) = some 0 ∧
      s.entry? 0 = some (entry (.live declared mirrored marked)) ∧ marked.marked = true ∧
      (wanFrame.length + 255) / 256 ≤ 4096 - s.park.cellsInUse ∧ marked.chain.length < s.param .parkLimit ∧
      (s.setParam .parkLimit 1).param .parkLimit ≤ marked.chain.length := by decide +kernel

/-- R168, R181: a frame from LAN, and level 3 at 1 percent: 41 cells of 4,096 are over it, 40 are not. -/
def nearLevel (cells : Nat) : State :=
  let s := withLive paired mirrored marked
  ({ s with park := { s.park with cellsInUse := cells } }).setParam (.parkLevel 2) 1

theorem test_hyp_FrameOfAMarkedEntryParks_lan :
    isDataFrame lanFrame = true ∧ readFrame lanFrame = .session (viewOf lanFrame) ∧
      (nearLevel 40).classify (.session (viewOf lanFrame)) = .track ∧
      (nearLevel 40).lookup (frameKey .lan (viewOf lanFrame)) = some 0 ∧
      (let cells := (lanFrame.length + 255) / 256
       (nearLevel 40).param (.parkLevel 2) * 4096 ≤ (40 + cells) * 100 ∧
         ∀ n, (39 + cells) * 100 < (nearLevel 39).param (.parkLevel n) * 4096) := by decide +kernel

/-! ## Witnesses: sequence tracking -/

/-- An RST; an end one past the right edge; an end at the right edge; acknowledgements beyond and at hi_seq. -/
theorem test_hyp_SegmentsAreCheckedAgainstTheEdges :
    ({ dataSegment 0#32 0 with rst := true } : Segment).rst = true ∧
      isAfter (dataSegment 113777#32 0).endSeq 113776#32 = true ∧ isAfter (dataSegment 113776#32 0).endSeq 113776#32 = false ∧
      isAfter 4294960001#32 4294960000#32 = true ∧ isAfter 4294960000#32 4294960000#32 = false := by decide +kernel

theorem test_hyp_ScalesWindowsAndAnomaliesStayCapped :
    tracking.scaleOut ≤ 14 ∧ tracking.scaleIn ≤ 14 ∧ tracking.anomalies ≤ 255 ∧
      tracking.out.maxWin.all (fun w => decide (w.toNat ≤ 1073725440)) = true ∧
      tracking.inn.maxWin.all (fun w => decide (w.toNat ≤ 1073725440)) = true := by decide +kernel

/-- R94: each state of the entry the rule names: mirror IDLE; neither queued, inflight nor CURRENT; CURRENT; queued. -/
theorem test_hyp_RefreshRequestIsJudgedByTheEntry :
    linked.mirror.state = .idle ∧ paired.mirror.state ≠ .idle ∧ LivePart.fresh.unprotected = false ∧
      (MirrorPart.fresh .tcp).inflight = none ∧ (MirrorPart.fresh .tcp).queued = none ∧ (MirrorPart.fresh .tcp).peer ≠ .current ∧
      mirrored.peer = .current ∧ mirrored.lane = none ∧
      (withLive paired mirrored .fresh).entry? 0 = some (entry (.live declared mirrored .fresh)) := by decide +kernel

/-! ## Witnesses: declarations -/

/-- A DECLARE of no record, from whichever firewall's IN port it arrives at. -/
def emptyDeclare : Frame := ccf .declare 0#8 41#16 []

/-- R48: firewall B is neither active nor a cutover source; firewall A is active; and in a planned cutover's late window
its source is taken too. -/
def lateWindow : State :=
  { paired with role := { paired.role with
      active := .b, phase := .transfer, kind := some .planned, source := some .a, dest := some .b, lateWindow := .running 1000 } }

theorem test_hyp_DeclareFromTheWrongRoleIsRefusedWhole :
    goodCcf .declare emptyDeclare = true ∧ paired.role.active ≠ .b ∧ paired.role.source ≠ some .b ∧
      paired.hasRoom .bIn 1 := ⟨by decide +kernel, by decide, by decide, rfl, by decide⟩

theorem test_hyp_AcceptedDeclareSetsTheSequenceRecord :
    goodCcf .declare emptyDeclare = true ∧ (readCcf emptyDeclare).records = 0 ∧ paired.role.active = .a ∧ paired.quiet ∧
      lateWindow.role.source = some .a ∧ lateWindow.role.kind = some .planned ∧ lateWindow.role.phase = .transfer ∧
      lateWindow.role.lateWindow.isRunning = true :=
  ⟨by decide +kernel, by decide +kernel, rfl, ⟨by decide, by decide⟩, rfl, rfl, rfl, rfl⟩

/-- R52: a whole record and then a second cut short by one byte; the record a PUT that makes an entry, and a DROP. -/
def putBytes : List Byte := declPart (entry .tentative) { declared with blob := [] }
def twoRecords : Frame := ccf .declare 2#8 41#16 (putBytes ++ putBytes.take 35)

theorem test_hyp_AcceptedDeclareSetsTheSequenceRecord_walk :
    goodCcf .declare twoRecords = true ∧ (readCcf twoRecords).records = 2 ∧
      (readCcf twoRecords).payload = [putBytes].flatten ++ putBytes.take 35 ∧ byteAt putBytes 1 = 4#8 ∧
      putBytes.length = 36 + (word16At putBytes 10).toNat ∧ byteAt (putBytes.take 35) 1 = 4#8 ∧
      (putBytes.take 35).length < 36 + (word16At (putBytes.take 35) 10).toNat ∧
      (readDecl putBytes).map (·.put) = some true ∧ (readDecl (2#8 :: putBytes.drop 1)).map (·.put) = some false := by
  decide +kernel

/-- R52, R61: the PUT of that frame makes an entry, and the record that is cut short is refused. -/
theorem test_declare_applies_its_records :
    (match exec (.declare .aIn twoRecords) paired with
      | .next t => t.phase 0 == .live && t.count .declAccepted == 1 && t.count .refusedBadRecord == 1
      | _ => false) = true := by decide +kernel

/-- R54: bytes that are no record, and a PUT whose outside key another LIVE entry holds. -/
def clashing : DeclRecord := { record true with inside := { insideTuple with loc := { host with port := 51001#16 } } }

theorem test_hyp_RefusedRecordChangesNoEntry :
    readDecl [9#8] = none ∧ (declPart (entry .tentative) { declared with inside := clashing.inside, blob := [] }).length = 36 ∧
      (readDecl (declPart (entry .tentative) { declared with inside := clashing.inside, blob := [] })).map (·.inside) =
        some clashing.inside ∧
      (match (withLive paired mirrored .fresh).put .a clashing with
        | .error why => why == .keyClash
        | .ok _ => false) = true := by decide +kernel

/-- R61: an empty table, and handle 0 the lowest free. -/
theorem test_hyp_PutAllocatesALiveEntry :
    paired.tableOk ∧ paired.entry? 0 = none ∧ paired.holderIn (record true).insideKey .live = none ∧
      paired.holderIn (record true).outsideKey .tentative = none ∧ paired.holderIn (record true).outsideKey .live = none ∧
      paired.bucketLoad (paired.bucket (record true).insideKey) + 1 < 4 ∧
      paired.bucketLoad (paired.bucket (record true).outsideKey) + 1 < 4 ∧
      paired.retiringHolders (record true).insideKey (record true).outsideKey = [] ∧ paired.table.entries = [] := by decide +kernel

/-- An entry of another outside port, and a record that names it. -/
def elsewhere (port : Nat) (b : Body) : Entry :=
  { entry b with outside := { outsideTuple with loc := { translated with port := BitVec.ofNat 16 port } } }
def moved : DeclRecord := { record true with outside := (elsewhere 40001 .tentative).outside, scales := some (3, 15) }

/-- The entry at a handle, holding its outside key. -/
def holdingAt (s : State) (h : Nat) (e : Entry) : State := (s.addEntry h e).placeKey h .outside e.outsideKey

/-- A RETIRING entry at a handle that holds the outside key of `moved`. -/
def retiringAt (s : State) (h : Nat) : State := holdingAt s h (elsewhere 40001 (.retiring declared mirrored [9]))

/-- The slots of a bucket filled up to 3 by keys of no interest. -/
def crowded (s : State) (b : Nat) : State :=
  [100, 101, 102].foldl (fun t h => { t with table := { t.table with
    slots := SMap.put t.table.slots h { bucket := b, key := insideKey } } }) s

/-- R61, R62: the last slot of a bucket, one short of its 4; a port whose inside key falls in the outside key's bucket; and two
waits, the most, and three. -/
theorem test_hyp_PutAllocatesALiveEntry_clauses :
    (crowded paired 477).bucketLoad (paired.bucket outsideKey) = 3 ∧ (crowded paired 477).tableOk ∧
      paired.bucket (tupleKey .v4 .tcp .inside { insideTuple with loc := { host with port := 46699#16 } }) =
        paired.bucket outsideKey ∧ paired.bucket insideKey ≠ paired.bucket outsideKey ∧
      (let s := retiringAt (retiringAt paired 1) 2
       s.tableOk ∧ s.entry? 0 = none ∧ (s.retiringHolders moved.insideKey moved.outsideKey).length = 2 ∧
         s.holderIn moved.insideKey .live = none ∧ s.holderIn moved.outsideKey .tentative = none ∧
         s.holderIn moved.outsideKey .live = none ∧ s.bucketLoad (s.bucket moved.outsideKey) < 4 ∧
         s.entry? 1 = some (elsewhere 40001 (.retiring declared mirrored [9])) ∧
         ((retiringAt s 3).retiringHolders moved.insideKey moved.outsideKey).length = 3) := by decide +kernel

/-- R56: a LIVE entry holds both keys; R59: a TENTATIVE entry holds the outside key. -/
theorem test_hyp_PutUpdatesTheEntryItFinds :
    (let s := withLive paired mirrored .fresh
     s.holderIn (record true).insideKey .live = some 0 ∧ s.entry? 0 = some (entry (.live declared mirrored .fresh)) ∧
       (entry (.live declared mirrored .fresh)).outsideKey = (record true).outsideKey) ∧
    (let s := withTentative paired
     s.holderIn (record true).insideKey .live = none ∧ s.holderIn (record true).outsideKey .tentative = some 0 ∧
       s.entry? 0 = some (entry .tentative) ∧ s.bucketLoad (s.bucket (record true).insideKey) < 4 ∧
       s.retiringHolders (record true).insideKey (record true).outsideKey = [] ∧
       s.table.entries = [(0, entry .tentative)] ∧ (entry .tentative).blocks = []) := by decide +kernel

/-- R57: a PUT that moves the worked session to another outside key, with room behind two RETIRING entries, behind three, against
a LIVE holder, and with the new bucket full. -/
theorem test_hyp_PutUpdatesTheEntryItFinds_remap :
    let live := withLive paired mirrored marked
    let s := retiringAt (retiringAt live 1) 2
    live.entry? 0 = some (entry (.live declared mirrored marked)) ∧
      (entry (.live declared mirrored marked)).outsideKey ≠ moved.outsideKey ∧ s.tableOk ∧
      s.holderIn moved.insideKey .live = some 0 ∧ s.holderIn moved.outsideKey .live = none ∧
      s.holderIn moved.outsideKey .tentative = none ∧ (s.retiringHolders moved.insideKey moved.outsideKey).length = 2 ∧
      s.bucketLoad (s.bucket moved.outsideKey) = 2 ∧
      ((retiringAt s 3).retiringHolders moved.insideKey moved.outsideKey).length = 3 ∧
      (holdingAt live 3 (elsewhere 40001 (.live declared mirrored .fresh))).holderIn moved.outsideKey .live = some 3 ∧
      (crowded (retiringAt live 1) (paired.bucket moved.outsideKey)).bucketLoad (paired.bucket moved.outsideKey) = 4 ∧
      paired.bucket moved.outsideKey ≠ paired.bucket outsideKey := by decide +kernel

/-- R58: a TENTATIVE entry holds the new outside key, its labels the other way round; the LIVE one has edges, and has none. -/
theorem test_hyp_PutUpdatesTheEntryItFinds_absorb :
    let swapped : Entry := { elsewhere 40001 .tentative with outside := { loc := moved.outside.rem, rem := moved.outside.loc } }
    let s := holdingAt (withLive paired mirrored .fresh) 3 swapped
    let bare := holdingAt (holding paired { entry (.live declared mirrored .fresh) with tcp := some Tracking.fresh }) 3 swapped
    s.tableOk ∧ s.holderIn moved.outsideKey .live = none ∧ s.holderIn moved.outsideKey .tentative = some 3 ∧
      s.holderIn moved.insideKey .live = some 0 ∧ s.retiringHolders moved.insideKey moved.outsideKey = [] ∧
      swapped.tcp = some tracking ∧ swapped.outside.loc ≠ swapped.outside.rem ∧ swapped.outside.loc = moved.outside.rem ∧
      bare.tableOk ∧ (bare.entry? 0).bind (·.tcp) = some Tracking.fresh := by decide +kernel

/-- R63, R92, R93, R158, R174: the sender active, with no target and with the other firewall as target; the sender both active and
the target; and the source of a planned cutover in its late window, the entry unmarked and marked, with a chain and without. -/
theorem test_hyp_PutUpdatesTheEntryItFinds_handOn :
    linked.role.active = .a ∧ linked.mirror.target = none ∧ paired.role.active = .a ∧
      paired.mirror.target = some (Fw.other .a) ∧ lateWindow.role.active = .b ∧ lateWindow.mirror.target = some .b ∧
      lateWindow.role.active ≠ .a ∧ lateWindow.role.source = some .a ∧ lateWindow.role.kind = some .planned ∧
      lateWindow.role.phase = .transfer ∧ lateWindow.role.lateWindow.isRunning = true ∧
      (withLive lateWindow mirrored marked).entry? 0 = some (entry (.live declared mirrored marked)) ∧
      (withLive lateWindow mirrored .fresh).entry? 0 = some (entry (.live declared mirrored .fresh)) ∧
      (withLive lateWindow mirrored { marked with marked := false }).entry? 0 =
        some (entry (.live declared mirrored { marked with marked := false })) ∧
      mirrored.lane = none ∧ mirrored.queued = none := by decide +kernel

/-- R64: a LIVE entry the target holds, one it cannot hold, and none. -/
theorem test_hyp_DropRetiresOrFrees :
    (withLive paired mirrored .fresh).tableOk ∧
      (withLive paired mirrored .fresh).holderIn (record false).insideKey .live = some 0 ∧ mirrored.peer ≠ .absent ∧
      mirrored.lane = none ∧ (withLive paired (.fresh .tcp) .fresh).tableOk ∧
      (withLive paired (.fresh .tcp) .fresh).holderIn (record false).insideKey .live = some 0 ∧
      (MirrorPart.fresh .tcp).peer = .absent ∧ (MirrorPart.fresh .tcp).inflight = none ∧
      paired.holderIn (record false).insideKey .live = none ∧ paired.lookup (record false).outsideKey = none := by
  decide +kernel

/-- R64: an inside key nothing holds, beside the outside key of a LIVE and of a TENTATIVE entry. -/
theorem test_hyp_DropRetiresOrFrees_byTheOutsideKey :
    let r : DeclRecord := { record false with inside := clashing.inside }
    (withLive paired mirrored .fresh).holderIn r.insideKey .live = none ∧
      (withLive paired mirrored .fresh).lookup r.outsideKey = some 0 ∧ (withTentative paired).tableOk ∧
      (withTentative paired).holderIn r.insideKey .live = none ∧ (withTentative paired).lookup r.outsideKey = some 0 ∧
      (withTentative paired).entry? 0 = some (entry .tentative) := by decide +kernel

/-- R150: a planned cutover in QUIESCE, its quiesce timer running. -/
def quiescing : State :=
  { paired with role := { paired.role with
      phase := .quiesce, kind := some .planned, reason := some .switchover, source := some .a, dest := some .b
      quiesce := .running 500 } }

theorem test_hyp_QuiesceEndsInTheMoveOfTheActiveRole :
    goodCcf .flushed (ccf .flushed 0#8 40#16 []) = true ∧ quiescing.role.phase = .quiesce ∧
      quiescing.role.source = some .a ∧ quiescing.role.kind = some .planned ∧ quiescing.count .cutoversPlanned < 4294967295 ∧
      paired.role.phase ≠ .quiesce ∧ quiescing.role.quiesce ≠ .stopped ∧ paired.role.quiesce = .stopped := by decide +kernel

/-- R154: nothing is marked before the TRANSFER, and a LIVE entry is ABSENT at the target; a last received value that the
FLUSHED differs from. -/
theorem test_hyp_QuiesceEnds_marking :
    let s := withLive quiescing (.fresh .tcp) .fresh
    s.tableOk ∧ s.role.marked = 0 ∧ (∀ h, s.isMarked h = false) ∧
      s.entry? 0 = some (entry (.live declared (.fresh .tcp) .fresh)) ∧ (MirrorPart.fresh .tcp).lane = none ∧
      (MirrorPart.fresh .tcp).queued = none ∧ (entry (.live declared (.fresh .tcp) .fresh)).toBeMarked = true ∧
      s.role.active = .a ∧ (readCcf (ccf .flushed 0#8 40#16 [])).seq ≠ 39#16 :=
  ⟨by decide +kernel, rfl, (fun h => by cases h <;> rfl), by decide +kernel, rfl, rfl, by decide +kernel, rfl, by decide +kernel⟩

/-! ## Witnesses: the mirror channel -/

/-- The worked session queued in NORMAL with a DECLARE. -/
def queuedPart : MirrorPart := { MirrorPart.fresh .tcp with lane := some .normal, queued := some .declare }
def owing : State :=
  { withLive paired queuedPart .fresh with mirror := { paired.mirror with normal := [0] } }

theorem test_hyp_PackingFormsOneBatch :
    owing.mirror.target = some .b ∧ owing.mirror.state = .streaming ∧ owing.mirror.beginPending = false ∧
      owing.mirror.slots.length < owing.param .batchWindow ∧
      (∃ h ∈ owing.mirror.urgent ++ owing.mirror.normal, owing.eligible h = true) ∧ owing.hasRoom .bIn 1 :=
  ⟨rfl, rfl, rfl, by decide +kernel, ⟨0, by decide, by decide +kernel⟩, rfl, by decide⟩

theorem test_hyp_PickedBatchFitsItsFrame :
    owing.pick = [0] ∧ owing.entry? 0 = some (entry (.live declared queuedPart .fresh)) ∧
      (entry (.live declared queuedPart .fresh)).declared? = some declared ∧ owing.queuedOf 0 = some .declare := by
  decide +kernel

/-- R97: an eligible entry queued, the limit 1, and no blob above 64 bytes. -/
theorem test_hyp_PickedBatchFitsItsFrame_first :
    (∀ h e d, owing.entry? h = some e → e.declared? = some d → d.blob.length ≤ 64) ∧
      1 ≤ (owing.setParam .recordLimit 1).param .recordLimit ∧ 0 ∈ owing.mirror.urgent ++ owing.mirror.normal ∧
      owing.eligible 0 = true :=
  ⟨(fun h e d he hd => by cases h with
    | zero => cases he; cases hd; decide
    | succ n => cases he), by decide +kernel, by decide, by decide +kernel⟩

/-- R105: an outstanding BEGIN-WALK batch of serial 7, the walk's cursor at the last handle. -/
def beginning : State :=
  { paired with mirror := { paired.mirror with
      state := .walking, cursor := 16383, beginPending := true
      slots := [{ serial := 7#16, age := 0, begin := true, records := [] }] } }

theorem test_hyp_SyncAckIsMatchedByItsSerial :
    goodCcf .syncAck (ccf .syncAck 0#8 7#16 []) = true ∧ paired.mirror.target = some .b ∧ paired.quiet ∧
      paired.mirror.slots = [] ∧ beginning.mirror.target = some .b ∧ beginning.role.phase ≠ .settle ∧
      beginning.mirror.cursor < 16384 ∧
      beginning.mirror.slots = [{ serial := (readCcf (ccf .syncAck 0#8 7#16 [])).seq, age := 0, begin := true, records := [] }] :=
  ⟨by decide +kernel, rfl, ⟨by decide, by decide⟩, rfl, rfl, by decide, by decide, by decide +kernel⟩

/-- An entry with a record inflight, and the record. -/
def sent (note : Note) : MirrorPart := { MirrorPart.fresh .tcp with inflight := some { serial := 0#16, note := note } }

theorem test_hyp_DeclareRecordIsSettledByItsNote :
    (withLive paired (sent .clean) .fresh).entry? 0 = some (entry (.live declared (sent .clean) .fresh)) ∧
      LivePart.fresh.marked = false ∧ (sent .clean).inflight = some { serial := 0#16, note := .clean } ∧
      (sent .owned).inflight = some { serial := 0#16, note := .owned } ∧
      (withLive paired (sent .owned) .fresh).entry? 0 = some (entry (.live declared (sent .owned) .fresh)) := by decide +kernel

/-- R107: two sent records, of an entry overtaken and now CURRENT, and of one queued again, in one batch. -/
def sentTwo : State :=
  let s := withLive paired { sent .owned with peer := .current } .fresh
  let s := holdingAt s 1 (elsewhere 40004 (.live declared { sent .clean with lane := some .normal, queued := some .declare } .fresh))
  { s with mirror := { s.mirror with
      normal := [1], timeouts := 1
      slots := [{ serial := 7#16, age := 2, begin := false
                  records := [{ handle := 0, kind := .declare, walk := false, edges := none },
                    { handle := 1, kind := .refresh, walk := false, edges := none }] }] } }

theorem test_sentTwo_canPutBack :
    sentTwo.canPutBack [{ handle := 0, kind := .declare, walk := false, edges := none },
      { handle := 1, kind := .refresh, walk := false, edges := none }] := ⟨by decide, by decide +kernel⟩

/-- R107, R116: the SYNC-ACK of no status for that batch; and a walk whose cursor is at 16,384. -/
theorem test_hyp_SyncAckIsMatchedByItsSerial_clauses :
    (readCcf (ccf .syncAck 0#8 7#16 [])).records = 0 ∧ (readCcf (ccf .syncAck 0#8 7#16 [])).seq = 7#16 ∧
      sentTwo.mirror.slots.map (·.serial) = [7#16] ∧ sentTwo.mirror.target = some .b ∧ sentTwo.role.phase ≠ .settle ∧
      sentTwo.mirror.state ≠ .walking ∧
      (let s := { beginning with mirror := { beginning.mirror with cursor := 16384 } }
       s.mirror.state = .walking ∧ s.mirror.cursor = 16384 ∧ s.mirror.walkPending = 0 ∧ s.param .preemptPreferred = 0 ∧
         s.role.dwell ≠ .complete) := by decide +kernel

/-- R102: a SYNC-ACK of one status for that batch of two records. -/
theorem test_hyp_SyncAckIsMatchedByItsSerial_statuses :
    let fr := ccf .syncAck 1#8 7#16 [0#8]
    goodCcf .syncAck fr = true ∧ (readCcf fr).seq = 7#16 ∧ (readCcf fr).payload.take (readCcf fr).records = [0#8] ∧
      (sentTwo.mirror.slots.map (fun b => (b.serial, b.records.length))) = [(7#16, 2)] ∧ sentTwo.mirror.target = some .b := by
  decide +kernel

/-- R156: a marked entry whose record has its edges as the snapshot, and has others; one that has drift; and a REFRESH. -/
theorem test_hyp_DeclareRecordIsSettledByItsNote_marked :
    (withLive paired (sent .clean) marked).entry? 0 = some (entry (.live declared (sent .clean) marked)) ∧
      marked.marked = true ∧ (sent .clean).queued = none ∧ (sent .clean).inflight = some { serial := 0#16, note := .clean } ∧
      (entry .tentative).tcp = some tracking ∧ (sent .clean).edges = some .invalid ∧ MirEdges.invalid ≠ tracking.snapshot ∧
      (entry (.live declared (sent .clean) marked)).anyDrift = true ∧
      (withLive paired { sent .clean with peer := .current } marked).entry? 0 =
        some (entry (.live declared { sent .clean with peer := .current } marked)) := by decide +kernel

theorem test_hyp_RetireRecordFreesItsEntry :
    let s := holding paired (entry (.retiring declared (sent .clean) []))
    s.tableOk ∧ s.entry? 0 = some (entry (.retiring declared (sent .clean) [])) ∧ (sent .clean).inflight ≠ none := by
  decide +kernel

/-- R8, R62: the freed entry blocks handle 1, which waits for it alone and has its DECLARE queued. -/
def blocking : State :=
  holdingAt (holding paired (entry (.retiring declared (sent .clean) [1]))) 1
    (elsewhere 40001 (.live declared queuedPart { LivePart.fresh with waits := 1 }))

theorem test_hyp_RetireRecordFreesItsEntry_waits :
    blocking.tableOk ∧ blocking.entry? 0 = some (entry (.retiring declared (sent .clean) [1])) ∧ [1].Nodup ∧
      blocking.entry? 1 = some (elsewhere 40001 (.live declared queuedPart { LivePart.fresh with waits := 1 })) ∧
      queuedPart.queued ≠ none ∧ queuedPart.inflight = none ∧ blocking.role.phase ≠ .settle := by decide +kernel

/-- R101, R108: a batch of age 1 and one of age 2; the count one short of the stall count, and two short. -/
def outstanding (age : Nat) : State :=
  { withLive paired (sent .clean) .fresh with mirror := { paired.mirror with
      timeouts := 2
      slots := [{ streamBatch 0 with age := age }] } }

theorem test_hyp_ConfirmSweepAgesAndTimesOut :
    (outstanding 1).quiet ∧ (∀ b ∈ (outstanding 1).mirror.slots, b.age < 2) ∧ (outstanding 2).mirror.state = .streaming ∧
      (outstanding 2).role.phase ≠ .settle ∧ (outstanding 2).mirror.slots.map (·.age) = [2] ∧
      (outstanding 2).param .stallCount ≤ min ((outstanding 2).mirror.timeouts + 1) 255 ∧
      min ((outstanding 2).mirror.timeouts + 1) 255 < ((outstanding 2).setParam .stallCount 7).param .stallCount :=
  ⟨⟨by decide, by decide⟩, by decide, rfl, by decide, rfl, by decide +kernel, by decide +kernel⟩

/-- R107, R109, R159: the batch that times out, its records put back; a PUSHING mirror in TRANSFER at the stall count; and one in
SETTLE short of it with a frame held. -/
def pushing (ph : CutPhase) (timeouts : Nat) : State :=
  { sentTwo with
    mirror := { sentTwo.mirror with state := .pushing, timeouts := timeouts }
    role := { sentTwo.role with phase := ph, cutLimit := .running 10 }
    park := { sentTwo.park with cellsInUse := 1, framesHeld := 1 } }

theorem test_hyp_ConfirmSweepAgesAndTimesOut_clauses :
    sentTwo.mirror.state = .streaming ∧ sentTwo.mirror.slots.map (fun b => (b.age, b.begin)) = [(2, false)] ∧
      (pushing .transfer 2).tableOk ∧ (pushing .transfer 2).role.phase = .transfer ∧
      (pushing .transfer 2).param .stallCount ≤ min ((pushing .transfer 2).mirror.timeouts + 1) 255 ∧
      (pushing .settle 0).role.phase = .settle ∧ (pushing .settle 0).park.framesHeld ≠ 0 ∧
      min ((pushing .settle 0).mirror.timeouts + 1) 255 < (pushing .settle 0).param .stallCount := by decide +kernel

/-- R114: the cursor at an entry the target lacks, and at a free handle. -/
def walking (n : Nat) : State :=
  { withLive paired (.fresh .tcp) .fresh with mirror := { paired.mirror with state := .walking, cursor := n } }

theorem test_hyp_WalkCursorQueuesWhatTheTargetLacks :
    (walking 0).mirror.state = .walking ∧ (walking 0).mirror.urgent.length + (walking 0).mirror.normal.length < 512 ∧
      (walking 0).mirror.cursor < 16383 ∧ (walking 0).tableOk ∧
      (walking 0).entry? 0 = some (entry (.live declared (.fresh .tcp) .fresh)) ∧ (walking 16382).mirror.cursor < 16383 ∧
      (walking 16382).entry? 16382 = none ∧ (walking 16382).tableOk := by decide +kernel

/-! ## Witnesses: firewall health and links -/

/-- A PULSE that claims ACTIVE, of a fitness. -/
def pulseFrame (fit : Nat) : Frame := ccf .pulse 0#8 77#16 [1#8, BitVec.ofNat 8 fit]

/-- R126, R127: fitness 0 and fitness 1; links UP and not; UP, and a JOINING firewall. -/
theorem test_hyp_PulseMovesTheSendersHealth :
    goodCcf .pulse (pulseFrame 0) = true ∧ goodCcf .pulse (pulseFrame 1) = true ∧ (byteAt (readCcf (pulseFrame 0)).payload 1).toNat = 0 ∧
      (byteAt (readCcf (pulseFrame 1)).payload 1).toNat = 1 ∧ (paired.port .aIn).link = .up ∧ (paired.port .aOut).link = .up ∧
      (State.reset.port .aIn).link ≠ .up ∧ (paired.fw .a).state = .up ∧ (linked.fw .a).state = .absent := by decide +kernel

/-- R110: a STALLED mirror whose restart hold has expired, its target UP; R144: a JOINING firewall one good pulse short of UP, the
active one not usable, no target, and the startup wait over. -/
theorem test_hyp_PulseMovesTheSendersHealth_clauses :
    (let s := { withLive paired mirrored .fresh with
       mirror := { paired.mirror with state := .stalled, restartHold := .expired } }
     s.tableOk ∧ (s.fw .b).state = .up ∧ s.mirror.state = .stalled ∧ s.mirror.target = some .b ∧
       s.mirror.restartHold = .expired) ∧
    (let s : State := { linked with
       health := { a := healthy .joining, b := { healthy .joining with good := 4 } }
       role := { Role.reset with startup := .over } }
     (s.fw .b).state = .joining ∧ s.param .rejoinCount ≤ min ((s.fw .b).good + 1) 15 ∧ s.role.active = Fw.other .b ∧
       s.usable .a = false ∧ s.role.phase = .none ∧ s.mirror.target = none ∧ s.role.startup = .over) := by decide +kernel

theorem test_hyp_PulseOfAnUpFirewallIsAnswered :
    goodCcf .pulse (pulseFrame 15) = true ∧ (byteAt (readCcf (pulseFrame 15)).payload 1).toNat ≠ 0 ∧ (paired.fw .a).state = .up ∧
      (paired.port .aOut).link = .up ∧ paired.param .preemptPreferred = 0 ∧ paired.param .fitnessPreemption = 0 ∧
      paired.role.dwell = .stopped ∧ paired.mirror.state ≠ .stalled ∧ isGroup (readCcf (pulseFrame 15)).source = false ∧
      (paired.port .aIn).link = .up ∧ (paired.port .aIn).tx.length + 1 ≤ Config.txDepth := by decide +kernel

/-- R128: the timer runs at a firewall UP, SUSPECT with the dead count reached and not, and JOINING. -/
theorem test_hyp_PulseTimerExpiryCountsAMiss :
    (paired.fw .a).pulseTimer ≠ .stopped ∧ (State.reset.fw .a).pulseTimer = .stopped ∧ (healthy .suspect).state = .suspect ∧
      paired.param .deadCount ≤ min (2 + 1) 15 ∧ min (1 + 1) 15 < paired.param .deadCount ∧ (healthy .joining).state = .joining := by
  decide +kernel

theorem test_hyp_LinkLossMakesItsFirewallDown :
    (State.reset.port .lan).link = .down ∧ (paired.port .aIn).link = .up ∧ Port.fw? .aIn = some .a ∧
      (paired.port .wan).link = .up ∧ Port.fw? .wan = none := by decide

/-- R117, R152: the loss of the firewall that is not active, the target, in phase NONE and in QUIESCE. -/
theorem test_hyp_LinkLossMakesItsFirewallDown_target :
    Port.fw? .bOut = some paired.role.active.other ∧ (paired.fw paired.role.active.other).state.isDown = false ∧
      (withLive paired mirrored .fresh).tableOk ∧ paired.role.phase = .none ∧ paired.mirror.target = some paired.role.active.other ∧
      (withLive paired mirrored .fresh).entry? 0 = some (entry (.live declared mirrored .fresh)) ∧
      (quiescing.fw quiescing.role.active.other).state.isDown = false ∧ quiescing.role.phase = .quiesce := by decide +kernel

theorem test_hyp_LinkRiseAndTransmission :
    (State.reset.port .lan).link = .down ∧ (paired.port .lan).link = .up ∧ (paired.port .lan).tx = [] ∧
      (full.port .lan).tx = [] :: List.replicate 63 [] := by decide +kernel

/-! ## Witnesses: roles and cutover -/

theorem test_hyp_AssignedRoleAndReadinessAreDerived :
    paired.role.active = .a ∧ paired.role.active ≠ .b ∧ (paired.fw .b).state = .up ∧ (linked.fw .b).state = .absent ∧
      paired.ready = true ∧ linked.ready = false := by decide

theorem test_hyp_LossOfTheActiveFirewall :
    Port.fw? .aOut = some paired.role.active ∧ (paired.port .aOut).link = .up ∧
      (paired.fw paired.role.active).state.isDown = false ∧ paired.role.phase = .none ∧ paired.param .holdDown ≠ 0 ∧
      paired.usable paired.role.active.other = true ∧ linked.usable linked.role.active.other = false ∧
      linked.mirror.state ≠ .walking := by decide

/-- In TRANSFER, the cutover limit running, with the worked session marked. -/
def transferring : State :=
  let s := withLive { paired with role := { paired.role with phase := .transfer, cutLimit := .running 10, marked := 1 } }
    (.fresh .tcp) marked
  { s with park := { s.park with cellsInUse := 1, framesHeld := 1 } }

/-- R152, R161, R162: the loss of the active firewall in QUIESCE; and in TRANSFER, with the other firewall usable and not. -/
theorem test_hyp_LossOfTheActiveFirewall_cutover :
    quiescing.tableOk ∧ quiescing.role.phase = .quiesce ∧ (quiescing.fw quiescing.role.active).state.isDown = false ∧
      transferring.tableOk ∧ transferring.role.phase = .transfer ∧ transferring.usable transferring.role.active.other = true ∧
      Port.fw? .aIn = some transferring.role.active ∧ (transferring.port .aIn).link = .up ∧
      (transferring.fw transferring.role.active).state.isDown = false ∧
      transferring.entry? 0 = some (entry (.live declared (.fresh .tcp) marked)) ∧ marked.marked = true ∧ marked.chain ≠ [] ∧
      (let s := { transferring with health := { transferring.health with b := healthy .joining } }
       s.usable s.role.active.other = false ∧ (s.fw s.role.active).state.isDown = false) := by decide +kernel

/-- The facts of `State.heads`, for a request at the head of the queue of a state whose links are UP. -/
theorem heads_of (s : State) (code : Byte) (args : List Byte) (hl : (s.port .aIn).link = .up)
    (ht : (s.port .aIn).tx.length < Config.txDepth) : (asking s code args).heads (request code args) [] code :=
  ⟨rfl, rfl, hl, ht⟩

theorem test_hyp_SwitchoverIsJudgedInOrder :
    (asking paired 16#8 [0#8]).heads (request 16#8 [0#8]) [] 16#8 ∧ (asking paired 16#8 [0#8]).permitsWrite .aIn = true ∧
      paired.role.phase = .none ∧ paired.usable paired.role.active.other = true ∧ paired.ready = true ∧
      quiescing.role.phase ≠ .none ∧ linked.usable linked.role.active.other = false :=
  ⟨heads_of _ _ _ rfl (by decide), rfl, rfl, rfl, by decide, by decide, rfl⟩

/-- R151: what the pre-push moves: an entry that owes its DECLARE, one in NORMAL, an unprotected one, and a RETIRING blocker. -/
theorem test_hyp_SwitchoverIsJudgedInOrder_prepush :
    (withLive paired (.fresh .tcp) .fresh).tableOk ∧ (MirrorPart.fresh .tcp).lane = none ∧
      (MirrorPart.fresh .tcp).queued = none ∧ (MirrorPart.fresh .tcp).inflight = none ∧ (MirrorPart.fresh .tcp).peer ≠ .current ∧
      owing.tableOk ∧ queuedPart.lane ≠ none ∧ queuedPart.queued ≠ none ∧ LivePart.fresh.unprotected = false ∧
      { LivePart.fresh with unprotected := true }.unprotected = true ∧
      (let s := holding paired (entry (.retiring declared { mirrored with lane := some .normal, queued := some .retire } [9]))
       s.tableOk ∧
         s.entry? 0 = some (entry (.retiring declared { mirrored with lane := some .normal, queued := some .retire } [9]))) := by
  decide +kernel

/-- R142: the startup wait runs; A is absent and B is UP. -/
def starting : State := { linked with health := { a := .reset, b := healthy .up } }

theorem test_hyp_StartupWaitEndsInTheStartupTest :
    paired.role.startup = .over ∧ starting.role.startup ≠ .over ∧ starting.role.phase = .none ∧
      (starting.fw starting.role.active).state ≠ .up ∧ (starting.fw starting.role.active.other).state = .up ∧
      starting.count .cutoversUnplanned < 4294967295 ∧ (linked.fw linked.role.active.other).state ≠ .up := by decide +kernel

/-- Each role timer running, with a preferred standby and with none. -/
def timed : State :=
  { paired with
    role := { paired.role with holdDown := .running 30, dwell := .running 5, lateWindow := .running 1000 }
    mirror := { paired.mirror with restartHold := .running 20 } }

theorem test_hyp_RoleTimersExpire :
    timed.role.holdDown = .running 30 ∧ timed.role.dwell = .running 5 ∧ timed.role.lateWindow ≠ .stopped ∧
      timed.mirror.restartHold = .running 20 ∧ timed.role.phase = .none ∧ timed.ready = true ∧
      ((timed.setParam .preemptPreferred 1).setParam .preferred 2).param .preemptPreferred = 1 ∧
      ((timed.setParam .preemptPreferred 1).setParam .preferred 2).param .preferred = Fw.code timed.role.active.other ∧
      ¬ (timed.param .preemptPreferred = 1) ∧ timed.role.dwell ≠ .complete ∧ paired.role.holdDown = .stopped ∧
      paired.role.dwell = .stopped ∧ paired.role.lateWindow = .stopped ∧ paired.mirror.restartHold = .stopped := by decide +kernel

theorem test_hyp_CutoverLimitClearsEveryMark :
    transferring.tableOk ∧ transferring.role.cutLimit ≠ .stopped ∧ transferring.isMarked 0 = true ∧
      paired.role.cutLimit = .stopped := by decide +kernel

/-! ## Witnesses: aging and the Park Buffer -/

/-- R24, R25: idle tags 1 and 2, the boundary. -/
theorem test_hyp_SweepsAgeRetireAndFree :
    (withTentative paired).tableOk ∧ (withTentative paired).entry? 0 = some (entry .tentative) ∧
      (withLive paired mirrored .fresh).tableOk ∧ (withLive paired mirrored .fresh).quiet ∧
      (holding paired { entry (.live declared mirrored .fresh) with idleTag := 2 }).tableOk ∧
      (holding paired { entry (.live declared mirrored .fresh) with idleTag := 2 }).entry? 0 =
        some { entry (.live declared mirrored .fresh) with idleTag := 2 } :=
  ⟨by decide +kernel, by decide +kernel, by decide +kernel, ⟨by decide, by decide⟩, by decide +kernel, by decide +kernel⟩

/-- R116, R160: a walk with its last handle left to examine, and a SETTLE with a batch outstanding. -/
theorem test_hyp_SweepsAgeRetireAndFree_unended :
    (walking 16383).unended ∧ (walking 16383).mirror.state = .walking ∧ (pushing .settle 0).unended ∧
      (pushing .settle 0).role.phase = .settle ∧ (walking 16383).tableOk :=
  ⟨⟨fun _ => by decide, fun h => by cases h⟩, rfl, ⟨fun h => by (exfalso; revert h; decide), fun _ => by decide⟩, rfl, by decide +kernel⟩

/-- R175: a marked entry with a chain of age 2, and one of age 1. -/
theorem test_hyp_ParkSweepAgesOrReleasesChains :
    transferring.tableOk ∧ transferring.mirror.state ≠ .walking ∧ transferring.park.framesHeld ≠ 0 ∧
      transferring.entry? 0 = some (entry (.live declared (.fresh .tcp) marked)) ∧ marked.marked = true ∧ marked.chain ≠ [] ∧
      2 ≤ marked.chainAge := by decide +kernel

/-- R175: no frame is held; and in SETTLE a batch is outstanding. -/
theorem test_hyp_ParkSweepAgesOrReleasesChains_clauses :
    paired.tableOk ∧ paired.park.framesHeld = 0 ∧ paired.mirror.state ≠ .walking ∧ paired.role.phase ≠ .settle ∧
      (pushing .settle 0).tableOk ∧ (pushing .settle 0).mirror.slots ≠ [] ∧ (pushing .settle 0).mirror.state ≠ .walking := by
  decide +kernel

/-- R172: a chain of 8 frames from WAN at the head of the Release Queue. -/
def released : LivePart := { LivePart.fresh with chain := List.replicate 8 parkedFrame }
def releasing : State :=
  let s := withLive paired mirrored released
  { s with park := { s.park with cellsInUse := 8, framesHeld := 8, releaseQueue := [0] } }

theorem test_hyp_ReleaseTurnSendsTheChainInOrder :
    releasing.quiet ∧ releasing.park.releaseQueue = [0] ∧
      releasing.entry? 0 = some (entry (.live declared mirrored released)) ∧ released.chain ≠ [] ∧
      released.chain.length ≤ 8 ∧ (∀ x ∈ released.chain, x.port = .wan) ∧
      (releasing.port releasing.role.active.outPort).link = .up ∧ (releasing.port releasing.role.active.outPort).tx.length ≤ 56 ∧
      (releasing.port releasing.role.active.inPort).tx.length ≤ 56 :=
  ⟨⟨by decide, by decide⟩, rfl, by decide +kernel, by decide +kernel, by decide +kernel, by decide +kernel, rfl, by decide, by decide⟩

/-- R160: the last chain of a SETTLE, the mirror target the active firewall; the standby usable, and not. -/
def settling (b : HealthState) : State :=
  { releasing with
    role := { releasing.role with phase := .settle, cutLimit := .running 1, lateWindow := .running 1 }
    mirror := { releasing.mirror with target := some .a, state := .pushing }
    health := { a := healthy .up, b := healthy b } }

theorem test_hyp_ReleaseTurnSendsTheChainInOrder_last :
    (settling .up).tableOk ∧ (settling .up).role.phase = .settle ∧ (settling .up).mirror.slots = [] ∧
      (settling .up).mirror.target = some (settling .up).role.active ∧ (settling .up).park.releaseQueue = [0] ∧
      (settling .up).entry? 0 = some (entry (.live declared mirrored released)) ∧
      (settling .up).park.framesHeld = released.chain.length ∧
      (settling .up).usable (settling .up).role.active.other = true ∧
      (settling .joining).usable (settling .joining).role.active.other = false := by decide +kernel

/-! ## Witnesses: management requests -/

theorem test_hyp_QueryJoinsTheRequestQueue :
    goodCcf .query (ccf .query 0#8 9#16 [8#8]) = true ∧ paired.requests.length < 4 ∧
      4 ≤ ({ paired with requests := List.replicate 4 (request 8#8 []) } : State).requests.length ∧
      (linked.setParam .lanManagement 1).param .lanManagement = 1 := by decide +kernel

/-- R197: B asks for a write while A is active and both are UP; R196: code 0 and code 20. -/
theorem test_hyp_RefusedRequestsChangeNothing :
    (Instr.setParam, 2#8) ∈ [(Instr.setParam, 2#8), (.clearEvents, 9#8)] ∧ paired.role.active ≠ .b ∧
      (paired.fw .a).state ≠ .absent ∧ ({ request 2#8 [] with port := .bIn } : Request).port = Fw.inPort .b ∧
      ({ paired with requests := [{ request 2#8 [] with port := .bIn }] } : State).heads
        { request 2#8 [] with port := .bIn } [] 2#8 ∧
      (asking paired 20#8 []).heads (request 20#8 []) [] 20#8 ∧ 20 ≤ (20#8 : Byte).toNat ∧
      (asking paired 0#8 []).heads (request 0#8 []) [] 0#8 :=
  ⟨by decide, by decide, by decide, rfl, ⟨rfl, rfl, rfl, by decide⟩, heads_of _ _ _ rfl (by decide), by decide,
    heads_of _ _ _ rfl (by decide)⟩

theorem test_hyp_ParametersAreReadAndWritten :
    (asking paired 1#8 [37#8]).heads (request 1#8 [37#8]) [] 1#8 ∧ (asking paired 1#8 [37#8]).permitsRead .aIn = true ∧
      (asking paired 2#8 (be1 7 ++ beBytes 4 1001)).heads (request 2#8 (be1 7 ++ beBytes 4 1001)) [] 2#8 ∧
      (asking paired 2#8 (be1 7 ++ beBytes 4 1001)).permitsWrite .aIn = true ∧ paramKind 6 = .numeric 10 1000 ∧
      paramKind 1 = .enumerated 0 2 ∧ paramKind 33 = .mask 65535 ∧ paramKind 0 = .address ∧ paramKind 24 = .seed ∧
      isGroup (BitVec.ofNat 48 0x010000000000) = true ∧ isGroup (BitVec.ofNat 48 0x020000000000) = false ∧
      (withLive paired mirrored .fresh).table.occupancy ≠ 0 ∧ paired.table.occupancy = 0 :=
  ⟨heads_of _ _ _ rfl (by decide), rfl, heads_of _ _ _ rfl (by decide), rfl, rfl, rfl, rfl, rfl, rfl, by decide, by decide,
    by decide +kernel, rfl⟩

theorem test_hyp_StatusAndCountersAreReported :
    (asking paired 3#8 []).heads (request 3#8 []) [] 3#8 ∧ (asking paired 3#8 []).permitsRead .aIn = true ∧
      (asking paired 7#8 [0#8]).heads (request 7#8 [0#8]) [] 7#8 ∧ (asking paired 7#8 [0#8]).permitsRead .aIn = true ∧
      (asking paired 7#8 [1#8]).heads (request 7#8 [1#8]) [] 7#8 ∧ (asking paired 7#8 [1#8]).permitsWrite .aIn = true ∧
      (∀ i : Fin 51, paired.counters[i] ≤ 4294967295) :=
  ⟨heads_of _ _ _ rfl (by decide), rfl, heads_of _ _ _ rfl (by decide), rfl, heads_of _ _ _ rfl (by decide), rfl, by decide +kernel⟩

theorem test_hyp_EventsAreReadAndCleared :
    (asking paired 8#8 []).heads (request 8#8 []) [] 8#8 ∧ (asking paired 8#8 []).permitsRead .aIn = true ∧
      (asking paired 9#8 [0#8, 1#8]).heads (request 9#8 [0#8, 1#8]) [] 9#8 ∧
      (asking paired 9#8 [0#8, 1#8]).permitsWrite .aIn = true :=
  ⟨heads_of _ _ _ rfl (by decide), rfl, heads_of _ _ _ rfl (by decide), rfl⟩

/-- R205: a length of 33, one past the family's; row 32, one past the last; and a row that is read. -/
theorem test_hyp_PrefixRowsAreWrittenAndRead :
    (asking paired 10#8 ([31#8, 1#8, 4#8, 33#8, 2#8] ++ beBytes 4 0x0A000000)).heads
        (request 10#8 ([31#8, 1#8, 4#8, 33#8, 2#8] ++ beBytes 4 0x0A000000)) [] 10#8 ∧
      (asking paired 10#8 [32#8, 0#8, 4#8, 0#8, 0#8]).heads (request 10#8 [32#8, 0#8, 4#8, 0#8, 0#8]) [] 10#8 ∧
      5 ≤ (request 10#8 [32#8, 0#8, 4#8, 0#8, 0#8]).args.length ∧ 32 ≤ (byteAt [32#8] 0).toNat ∧
      (asking paired 11#8 [31#8]).heads (request 11#8 [31#8]) [] 11#8 :=
  ⟨heads_of _ _ _ rfl (by decide), heads_of _ _ _ rfl (by decide), by decide, by decide, heads_of _ _ _ rfl (by decide)⟩

/-- R205: a row of an IPv6 prefix, its length one past the family's; and prefix bytes one short, of each family. -/
theorem test_hyp_PrefixRowsAreWrittenAndRead_ipv6 :
    (asking paired 10#8 ([31#8, 1#8, 6#8, 129#8, 2#8] ++ beBytes 16 0x20010DB8)).heads
        (request 10#8 ([31#8, 1#8, 6#8, 129#8, 2#8] ++ beBytes 16 0x20010DB8)) [] 10#8 ∧
      (asking paired 10#8 [0#8, 1#8, 4#8, 8#8, 1#8, 10#8, 0#8, 0#8]).heads
        (request 10#8 [0#8, 1#8, 4#8, 8#8, 1#8, 10#8, 0#8, 0#8]) [] 10#8 ∧
      [0#8, 1#8, 4#8, 8#8, 1#8, 10#8, 0#8, 0#8].length < 5 + 4 ∧
      (asking paired 10#8 ([0#8, 1#8, 6#8, 8#8, 1#8] ++ beBytes 15 0)).heads
        (request 10#8 ([0#8, 1#8, 6#8, 8#8, 1#8] ++ beBytes 15 0)) [] 10#8 ∧
      ([0#8, 1#8, 6#8, 8#8, 1#8] ++ beBytes 15 0).length < 5 + 16 :=
  ⟨heads_of _ _ _ rfl (by decide), heads_of _ _ _ rfl (by decide), by decide, heads_of _ _ _ rfl (by decide), by decide⟩

/-- R202: the last handle, free; one past the last; the worked session by its outside key; and a key nothing holds. -/
def findArgs (port : Word16) : List Byte :=
  [1#8, 4#8, 6#8] ++ tupleBytes .v4 { outsideTuple with loc := { translated with port := port } }

theorem test_hyp_EntriesAreReported :
    (asking paired 4#8 [63#8, 255#8]).heads (request 4#8 [63#8, 255#8]) [] 4#8 ∧ paired.entry? 16383 = none ∧
      (withLive paired mirrored .fresh).entry? 0 ≠ none ∧ 16384 ≤ (64#8 : Byte).toNat * 256 + (0#8 : Byte).toNat ∧
      (asking paired 5#8 (findArgs 40000#16)).heads (request 5#8 (findArgs 40000#16)) [] 5#8 ∧
      findKey (findArgs 40000#16) = some outsideKey ∧ (withLive paired mirrored .fresh).lookup outsideKey = some 0 ∧
      (holding paired (entry (.retiring declared mirrored []))).lookup outsideKey = none ∧
      (holding paired (entry (.retiring declared mirrored []))).holderIn outsideKey .retiring = some 0 ∧
      paired.lookup outsideKey = none ∧ paired.holderIn outsideKey .retiring = none :=
  ⟨heads_of _ _ _ rfl (by decide), by decide +kernel, by decide +kernel, by decide, heads_of _ _ _ rfl (by decide),
    by decide +kernel, by decide +kernel, by decide +kernel, by decide +kernel, by decide +kernel, by decide +kernel⟩

/-- R202: arguments that are no key; GET_ENTRY of the handle that FIND_ENTRY found, at the same state; and each body an entry has. -/
theorem test_hyp_EntriesAreReported_clauses :
    findKey [9#8] = none ∧ (asking (withLive paired mirrored .fresh) 4#8 [0#8, 0#8]).heads (request 4#8 [0#8, 0#8]) [] 4#8 ∧
      (asking (withLive paired mirrored .fresh) 4#8 [0#8, 0#8]).permitsRead .aIn = true ∧
      (withTentative paired).entry? 0 = some (entry .tentative) ∧ mirrored.edges = some .invalid ∧
      (entry .tentative).mirror? = none ∧ (entry .tentative).tcp = some tracking :=
  ⟨by decide, heads_of _ _ _ rfl (by decide), rfl, by decide +kernel, by decide +kernel, rfl, rfl⟩

/-- R203: the last handle as cursor, and one past it. -/
theorem test_hyp_ListScansTheTable :
    (asking paired 6#8 [63#8, 255#8, 4#8, 0#8, 0#8, 0#8]).heads (request 6#8 [63#8, 255#8, 4#8, 0#8, 0#8, 0#8]) [] 6#8 ∧
      6 ≤ (request 6#8 [63#8, 255#8, 4#8, 0#8, 0#8, 0#8]).args.length ∧
      (word16At [63#8, 255#8, 4#8, 0#8, 0#8, 0#8] 0).toNat = 16383 ∧
      (readFilter [63#8, 255#8, 4#8, 0#8, 0#8, 0#8]).ok = true ∧ (readFilter [64#8, 0#8, 16#8, 0#8, 0#8, 0#8]).ok = false :=
  ⟨heads_of _ _ _ rfl (by decide), by decide, by decide, by decide, by decide⟩

theorem test_hyp_ResyncStartsAWalk :
    (asking paired 17#8 []).heads (request 17#8 []) [] 17#8 ∧ (asking paired 17#8 []).permitsWrite .aIn = true ∧
      (asking paired 17#8 []).tableOk ∧ paired.role.phase = .none ∧ paired.mirror.target = some .b ∧
      quiescing.role.phase ≠ .none ∧ linked.mirror.target = none :=
  ⟨heads_of _ _ _ rfl (by decide), rfl, by decide +kernel, rfl, rfl, by decide, rfl⟩

theorem test_hyp_PurgeRetiresAnEntry :
    (asking paired 18#8 [64#8, 0#8]).heads (request 18#8 [64#8, 0#8]) [] 18#8 ∧
      (asking paired 18#8 [64#8, 0#8]).permitsWrite .aIn = true ∧ paired.tableOk ∧ paired.quiet ∧ paired.phase 16383 = .free ∧
      (withTentative paired).phase 0 = .tentative ∧ (withTentative paired).tableOk ∧
      (withLive paired mirrored .fresh).phase 0 = .live ∧
      (holding paired (entry (.retiring declared mirrored []))).phase 0 = .retiring :=
  ⟨heads_of _ _ _ rfl (by decide), rfl, by decide +kernel, ⟨by decide, by decide⟩, by decide +kernel, by decide +kernel,
    by decide +kernel, by decide +kernel, by decide +kernel⟩

/-- R207: a marked LIVE entry, in TRANSFER with two marks left, and out of it. -/
theorem test_hyp_PurgeRetiresAnEntry_marked :
    let s := { transferring with role := { transferring.role with marked := 2 } }
    s.tableOk ∧ s.quiet ∧ s.entry? 0 = some (entry (.live declared (.fresh .tcp) marked)) ∧ s.role.phase = .transfer ∧
      s.role.marked ≠ 1 ∧ s.role.marked ≠ 0 ∧ (withLive paired mirrored marked).quiet ∧
      (withLive paired mirrored marked).role.phase ≠ .transfer :=
  ⟨by decide +kernel, ⟨by decide, by decide⟩, by decide +kernel, rfl, by decide, by decide, ⟨by decide, by decide⟩, by decide⟩

theorem test_hyp_TableResetForgetsEverySession :
    (asking paired 19#8 []).heads (request 19#8 []) [] 19#8 ∧ (asking paired 19#8 []).permitsWrite .aIn = true ∧
      paired.role.phase = .none ∧ paired.mirror.target ≠ none ∧ linked.mirror.target = none ∧ quiescing.role.phase ≠ .none :=
  ⟨heads_of _ _ _ rfl (by decide), rfl, rfl, by decide, rfl, by decide⟩

/-! ## Witnesses: events -/

/-- R211: the event set and clear, enabled and not, with room at A-IN. -/
theorem test_hyp_OccurrenceLatchesAndNotifiesOnce :
    (paired.event .dark).flag = false ∧ ((paired.raise .dark []).event .dark).flag = true ∧
      (paired.param .noticeEnable).testBit (EventId.index .dark).val = true ∧
      ((paired.setParam .noticeEnable 0).param .noticeEnable).testBit (EventId.index .dark).val = false ∧
      (paired.param .noticeTargets).testBit (Fw.code .a - 1) = true ∧ paired.hasRoom (Fw.inPort .a) 1 :=
  ⟨by decide +kernel, by decide +kernel, by decide +kernel, by decide +kernel, by decide +kernel, rfl, by decide⟩

/-- R6, R181, R211: LAN named and LAN management on; and an occupancy at level 1 exactly, with the levels clear. -/
theorem test_hyp_OccurrenceLatchesAndNotifiesOnce_clauses :
    (((paired.setParam .noticeTargets 7).setParam .lanManagement 1).param .noticeTargets).testBit 2 = true ∧
      ((paired.setParam .noticeTargets 7).setParam .lanManagement 1).param .lanManagement = 1 ∧ paired.hasRoom .lan 1 ∧
      (paired.param .noticeTargets).testBit 2 = false ∧ paired.table.levels.get 0 = false ∧
      paired.param (.tableLevel 0) * 16384 ≤ 8192 * 100 ∧ 8192 * 100 < paired.param (.tableLevel 1) * 16384 ∧
      paired.param (.parkLevel 0) * 4096 ≤ 2048 * 100 ∧ 2048 * 100 < paired.param (.parkLevel 1) * 4096 :=
  ⟨by decide +kernel, by decide +kernel, ⟨rfl, by decide⟩, by decide +kernel, rfl, by decide +kernel, by decide +kernel,
    by decide +kernel, by decide +kernel⟩

end Sys2Proof.Tests
end

/-! The Session Table's invariant over one step (R1, R4, R5, R8), its reset value, and the symmetry of canonical keys
(R11 to R13). -/

namespace Sys2Proof.SessionTable

open Sys2Proof Sys2Proof.Machine Sys2Proof.Laws

/-! ## The table's invariant over one step -/

/-- The table's invariant is carried from `s` to `t`. -/
def KeepsTable (s t : State) : Prop := s.tableOk → t.tableOk

variable {s t u : State}

theorem KeepsTable.refl (s : State) : KeepsTable s s := id

theorem KeepsTable.trans (h : KeepsTable s t) (k : KeepsTable t u) : KeepsTable s u := k ∘ h

theorem KeepsTable.ite {c : Prop} [Decidable c] {a b : State} (ha : KeepsTable s a) (hb : KeepsTable s b) :
    KeepsTable s (if c then a else b) := by split <;> assumption

/-- The invariant reads nothing but the table. -/
theorem keepsTable_of_eq (h : t.table = s.table) : KeepsTable s t := fun hs => by
  unfold State.tableOk at hs ⊢
  rwa [h]

theorem keepsTable_moved (k : Moved s t) : KeepsTable s t := k.table

theorem keepsTable_still (k : Still s t) : KeepsTable s t := k.table

theorem keepsTable_held (k : Held s t) : KeepsTable s t := k.table

theorem keepsTable_asEvent {body : State → State} (h : KeepsTable s (body s)) : KeepsTable s (s.asEvent body) :=
  h.trans (keepsTable_held (sendRoleChanges_held _ _ _ _))

theorem keepsTable_setFw (f : Fw) (h : HealthRecord) : KeepsTable s (s.setFw f h) := keepsTable_of_eq rfl

/-- An empty table meets the invariant, whatever its level flags. -/
theorem tableOk_of_empty (he : t.table.entries = []) (hk : t.table.slots = []) (ho : t.table.occupancy = 0)
    (hn : t.table.tentative = 0) : t.tableOk := by
  unfold State.tableOk
  rw [he, hk, ho, hn]
  simp [SMap.wf, tentatives]

/-! ### Health -/

theorem keepsTable_moveHealth (s : State) (f : Fw) (h : HealthRecord) : KeepsTable s (s.moveHealth f h) :=
  (keepsTable_setFw f h).trans (keepsTable_held (raiseHealth_held _ _ _ _))

theorem keepsTable_pulseFrom (s : State) (f : Fw) (c : Ccf) : KeepsTable s (s.pulseFrom f c) := by
  unfold State.pulseFrom
  refine KeepsTable.trans ?_ (keepsTable_still (mirrorPulse_still _ f))
  refine KeepsTable.trans ?_ (keepsTable_moved (handIfChanged_moved _ s f))
  refine KeepsTable.trans ?_ (keepsTable_asEvent (keepsTable_held (fitnessTaken_held _)))
  refine KeepsTable.trans ?_ (keepsTable_held (sendRole_held _ f))
  exact (keepsTable_moveHealth s f _).trans (keepsTable_held (countMismatch_held _ f))

theorem keepsTable_pulseExpiry (s : State) (f : Fw) : KeepsTable s (s.pulseExpiry f) :=
  .ite ((keepsTable_moveHealth s f _).trans (keepsTable_moved (handIfChanged_moved _ s f))) (.refl s)

theorem keepsTable_linkLoss (s : State) (f : Fw) : KeepsTable s (s.linkLoss f) := by
  have k : KeepsTable s ((s.setFw f ((s.fw f).loseLink (s.param .beatPeriod))).raiseFwDown f .link) :=
    (keepsTable_setFw f _).trans (keepsTable_held (raise_held _ _ _))
  exact .ite k (k.trans (keepsTable_moved (handChange_moved _ _ _ _ _)))

/-! ### Links and frames that arrive -/

theorem keepsTable_linkRise (s : State) (p : Port) : KeepsTable s (s.linkRise p) := by
  have k : KeepsTable s (s.setPort p { s.port p with link := .up }) := keepsTable_of_eq rfl
  exact .ite (.refl s) (k.trans (keepsTable_held (raise_held _ _ _)))

theorem keepsTable_linkFall (s : State) (p : Port) : KeepsTable s (s.linkFall p) := by
  have k : KeepsTable s ((s.dropLink p).raisePortLink p .down) :=
    (keepsTable_of_eq (t := s.dropLink p) rfl).trans (keepsTable_held (raise_held _ _ _))
  unfold State.linkFall
  refine .ite (.refl s) ?_
  dsimp only
  split
  · exact k.trans (keepsTable_linkLoss _ _)
  · exact k

theorem keepsTable_transmit (s : State) (p : Port) : KeepsTable s (s.transmit p) := by
  unfold State.transmit
  split
  · exact .refl s
  · exact keepsTable_of_eq rfl

theorem keepsTable_bySender (s : State) (p : Port) {act : Fw → State} (h : ∀ f, KeepsTable s (act f)) :
    KeepsTable s (s.bySender p act) := by
  unfold State.bySender
  split
  · exact h _
  · exact .refl s

theorem keepsTable_queueRequest (s : State) (q : Request) : KeepsTable s (s.queueRequest q) :=
  .ite (keepsTable_of_eq rfl) (keepsTable_of_eq rfl)

theorem keepsTable_syncAckFrom (s : State) (c : Ccf) : KeepsTable s (s.syncAckFrom c) := by
  unfold State.syncAckFrom
  exact keepsTable_asEvent (keepsTable_still ((syncAck_still s _ _).trans (finish_still _)))

theorem keepsTable_toOwner (s : State) (p : Port) (k : CcfKind) (c : Ccf) : KeepsTable s (s.toOwner p k c) := by
  cases k
  case pulse => exact keepsTable_bySender s p (fun f => keepsTable_pulseFrom s f c)
  case declare => exact keepsTable_bySender s p (fun f => keepsTable_moved (declareFrom_moved s f c))
  case flushed => exact keepsTable_bySender s p (fun f => keepsTable_moved (flushedFrom_moved s f c))
  case syncAck => exact keepsTable_syncAckFrom s c
  case query => exact keepsTable_queueRequest s _
  all_goals exact .refl s

theorem keepsTable_ccfFrameIn (s : State) (p : Port) (f : Frame) : KeepsTable s (s.ccfFrameIn p f) := by
  unfold State.ccfFrameIn State.takeCcf
  refine .ite (.ite (keepsTable_of_eq rfl) ?_) (keepsTable_of_eq rfl)
  split
  · exact keepsTable_toOwner s p _ _
  · exact keepsTable_of_eq rfl

theorem keepsTable_receive (s : State) (p : Port) (f : Frame) : KeepsTable s (s.receive p f) := by
  have k : KeepsTable s (s.inc (.framesIn p)) := keepsTable_of_eq rfl
  exact .ite (.ite (k.trans (keepsTable_ccfFrameIn _ p f)) (k.trans (keepsTable_still (dataFrame_still _ p f))))
    (keepsTable_of_eq rfl)

/-! ### Requests -/

/-- A request keeps the table's invariant when the rule that judges it does. -/
theorem keepsTable_serve (s : State) (mine : Byte → Bool) {judge : State → Request → Answer}
    (h : ∀ v q, KeepsTable v (judge v q).state) : KeepsTable s (s.serve mine judge) := by
  unfold State.serve State.headFor
  split
  · rename_i q s1 hq
    have k : KeepsTable s s1 := by
      split at hq
      · cases hq
      · split at hq
        · cases hq; exact keepsTable_of_eq rfl
        · cases hq
    exact (k.trans (h s1 q)).trans (keepsTable_held (handTx_held _ _ _))
  · exact .refl s

theorem keepsTable_judgeRead (v : State) (q : Request) (n : Nat) {body : State → List Byte → Answer}
    (h : ∀ args, KeepsTable v (body v args).state) : KeepsTable v (v.judgeRead q n body).state := by
  unfold State.judgeRead
  split
  · exact .refl v
  · split
    · exact .refl v
    · exact h q.args

theorem keepsTable_judgeWrite (v : State) (q : Request) (n : Nat) {body : State → List Byte → Answer}
    (h : ∀ args, KeepsTable v (body v args).state) : KeepsTable v (v.judgeWrite q n body).state := by
  unfold State.judgeWrite
  split
  · exact .refl v
  · split
    · exact .refl v
    · exact h q.args

theorem keepsTable_getParamOf (v : State) (args : List Byte) : KeepsTable v (v.getParamOf args).state := by
  unfold State.getParamOf
  split <;> exact .refl v

theorem keepsTable_setParamOf (v : State) (args : List Byte) : KeepsTable v (v.setParamOf args).state := by
  unfold State.setParamOf
  split
  · exact .refl v
  · dsimp only
    repeat' split
    all_goals exact keepsTable_of_eq rfl

theorem keepsTable_entryAnswer (v : State) (bs : List Byte) (h : Nat) : KeepsTable v (v.entryAnswer bs h).state :=
  keepsTable_of_eq rfl

theorem keepsTable_getEntryOf (v : State) (args : List Byte) : KeepsTable v (v.getEntryOf args).state := by
  unfold State.getEntryOf
  split
  · exact keepsTable_entryAnswer v _ _
  · exact .refl v

theorem keepsTable_findEntryOf (v : State) (args : List Byte) : KeepsTable v (v.findEntryOf args).state := by
  unfold State.findEntryOf
  split
  · exact .refl v
  · split
    · exact keepsTable_entryAnswer v _ _
    · exact .refl v

theorem keepsTable_listOf (v : State) (args : List Byte) : KeepsTable v (v.listOf args).state := by
  unfold State.listOf
  dsimp only
  split <;> exact .refl v

theorem keepsTable_countersOf (v : State) (args : List Byte) : KeepsTable v (v.countersOf args).state :=
  .ite (keepsTable_of_eq rfl) (.refl v)

theorem keepsTable_judgeCounters (v : State) (q : Request) : KeepsTable v (v.judgeCounters q).state := by
  unfold State.judgeCounters
  split
  · exact keepsTable_judgeWrite v q 1 (keepsTable_countersOf v)
  · exact keepsTable_judgeRead v q 1 (keepsTable_countersOf v)

theorem keepsTable_setPrefixOf (v : State) (args : List Byte) : KeepsTable v (v.setPrefixOf args).state := by
  unfold State.setPrefixOf
  repeat' split
  all_goals exact keepsTable_of_eq rfl

theorem keepsTable_getPrefixOf (v : State) (args : List Byte) : KeepsTable v (v.getPrefixOf args).state := by
  unfold State.getPrefixOf
  split <;> exact .refl v

theorem keepsTable_resyncOf (v : State) : KeepsTable v v.resyncOf.state := by
  unfold State.resyncOf
  split
  · exact .refl v
  · split
    · exact .refl v
    · exact keepsTable_still (walkStart_still v _)

theorem keepsTable_purgeOf (v : State) (args : List Byte) : KeepsTable v (v.purgeOf args).state := by
  unfold State.purgeOf
  dsimp only
  split
  · exact keepsTable_still (purgeEntry_still v _)
  · exact .refl v

/-- R208: whatever the table held, TABLE_RESET leaves one that meets the invariant. -/
theorem keepsTable_tableReset (v : State) : KeepsTable v v.tableReset := by
  unfold State.tableReset
  have k : KeepsTable v { v.emptyTable with mirror := v.emptyTable.mirror.emptied } :=
    fun _ => tableOk_of_empty rfl rfl rfl rfl
  dsimp only
  split
  · exact k.trans (keepsTable_still (walkStart_still _ _))
  · exact k

theorem keepsTable_tableResetOf (v : State) : KeepsTable v v.tableResetOf.state := by
  unfold State.tableResetOf
  split
  · exact .refl v
  · exact keepsTable_tableReset v

/-! ### Timers -/

theorem keepsTable_restartExpiry (s : State) : KeepsTable s s.restartExpiry := by
  unfold State.restartExpiry
  split
  · exact keepsTable_of_eq rfl
  · exact .refl s
  · exact .refl s

theorem keepsTable_startupExpiry (s : State) : KeepsTable s s.startupExpiry := by
  unfold State.startupExpiry
  split
  · refine keepsTable_asEvent (KeepsTable.trans ?_ (keepsTable_moved (startupTest_moved _)))
    exact keepsTable_of_eq rfl
  · exact .refl s

theorem keepsTable_holdDownEnds (s : State) : KeepsTable s s.holdDownEnds := by
  refine .ite (keepsTable_asEvent (KeepsTable.trans ?_ (keepsTable_held (preemptTest_held _)))) (.refl s)
  exact keepsTable_of_eq rfl

theorem keepsTable_dwellEnds (s : State) : KeepsTable s s.dwellEnds := by
  unfold State.dwellEnds
  split
  · refine keepsTable_asEvent (KeepsTable.trans ?_ (keepsTable_held (preemptTest_held _)))
    exact keepsTable_of_eq rfl
  · exact .refl s
  · exact .refl s

theorem keepsTable_quiesceEnds (s : State) : KeepsTable s s.quiesceEnds := by
  have k : KeepsTable s { s with role := { s.role with quiesce := .stopped } } := keepsTable_of_eq rfl
  exact .ite (keepsTable_asEvent (.ite (k.trans (keepsTable_moved (makeTransfer_moved _))) k)) (.refl s)

theorem keepsTable_limitEnds (s : State) : KeepsTable s s.limitEnds := by
  refine .ite (keepsTable_asEvent (KeepsTable.trans ?_ (keepsTable_still ((releaseAll_held _).toStill.trans (finish_still _)))))
    (.refl s)
  exact keepsTable_of_eq rfl

/-! ### The step -/

/-- Every command keeps the table's invariant. -/
theorem exec_keepsTable {c : Instr} (h : exec c s = .next t) : KeepsTable s t := by
  cases c <;> cases h
  case reset => exact fun _ => tableOk_of_empty rfl rfl rfl rfl
  case rxError p f => exact keepsTable_receive s p f
  case dataFrame p f => exact keepsTable_receive s p f
  case pulse p f => exact keepsTable_receive s p f
  case declare p f => exact keepsTable_receive s p f
  case flushed p f => exact keepsTable_receive s p f
  case syncAck p f => exact keepsTable_receive s p f
  case query p f => exact keepsTable_receive s p f
  case refusedCcf p f => exact keepsTable_receive s p f
  case linkUp p => exact keepsTable_linkRise s p
  case linkDown p => exact keepsTable_linkFall s p
  case transmitFrame p => exact keepsTable_transmit s p
  case releaseTurn => exact keepsTable_still (releaseEvent_still s)
  case packBatch => exact keepsTable_held (packBatch_held s)
  case walkCursorStep => exact keepsTable_still (walkEvent_still s)
  case pulseTimerExpiry f => exact keepsTable_pulseExpiry s f
  case classSweepExpiry c => exact keepsTable_asEvent (keepsTable_still ((classSweep_still s c).trans (finish_still _)))
  case tentativeSweepExpiry => exact keepsTable_still (tentativeSweep_still s)
  case confirmSweepExpiry =>
    exact keepsTable_asEvent (keepsTable_still ((confirmSweep_held s).toStill.trans (finish_still _)))
  case parkSweepExpiry =>
    exact keepsTable_asEvent (keepsTable_still ((parkSweep_held s).toStill.trans (finish_still _)))
  case restartHoldExpiry => exact keepsTable_restartExpiry s
  case startupWaitExpiry => exact keepsTable_startupExpiry s
  case holdDownExpiry => exact keepsTable_holdDownEnds s
  case fitnessDwellExpiry => exact keepsTable_dwellEnds s
  case quiesceTimerExpiry => exact keepsTable_quiesceEnds s
  case lateWindowExpiry => exact .ite (keepsTable_of_eq rfl) (.refl s)
  case cutoverLimitExpiry => exact keepsTable_limitEnds s
  case getParam => exact keepsTable_serve s _ (fun v q => keepsTable_judgeRead v q 1 (keepsTable_getParamOf v))
  case setParam => exact keepsTable_serve s _ (fun v q => keepsTable_judgeWrite v q 1 (keepsTable_setParamOf v))
  case getStatus => exact keepsTable_serve s _ (fun v q => keepsTable_judgeRead v q 0
      (fun _ => keepsTable_held (clearLevels_held v)))
  case getEntry => exact keepsTable_serve s _ (fun v q => keepsTable_judgeRead v q 2 (keepsTable_getEntryOf v))
  case findEntry => exact keepsTable_serve s _ (fun v q => keepsTable_judgeRead v q 3 (keepsTable_findEntryOf v))
  case list => exact keepsTable_serve s _ (fun v q => keepsTable_judgeRead v q 6 (keepsTable_listOf v))
  case getCounters => exact keepsTable_serve s _ keepsTable_judgeCounters
  case getEvents => exact keepsTable_serve s _ (fun v q => keepsTable_judgeRead v q 0 (fun _ => .refl v))
  case clearEvents => exact keepsTable_serve s _ (fun v q => keepsTable_judgeWrite v q 2 (fun _ => keepsTable_of_eq rfl))
  case setPrefix => exact keepsTable_serve s _ (fun v q => keepsTable_judgeWrite v q 5 (keepsTable_setPrefixOf v))
  case getPrefix => exact keepsTable_serve s _ (fun v q => keepsTable_judgeRead v q 1 (keepsTable_getPrefixOf v))
  case switchover => exact keepsTable_serve s _ (fun v q => keepsTable_judgeWrite v q 1
      (fun _ => keepsTable_still (judgeSwitchover_still v _)))
  case resync => exact keepsTable_serve s _ (fun v q => keepsTable_judgeWrite v q 0 (fun _ => keepsTable_resyncOf v))
  case purge => exact keepsTable_serve s _ (fun v q => keepsTable_judgeWrite v q 2 (keepsTable_purgeOf v))
  case tableReset => exact keepsTable_serve s _ (fun v q => keepsTable_judgeWrite v q 0 (fun _ => keepsTable_tableResetOf v))
  case unknownRequest => exact keepsTable_serve s _ (fun v _ => .refl v)

/-- Settles O6: each command keeps the invariant, by the frame of the operation it calls. -/
theorem sessionTableStaysCanonical : Obligations.SessionTableStaysCanonical := by
  intro s t hs hstep
  unfold step at hstep
  split at hstep
  · cases hstep; exact hs
  · exact exec_keepsTable (s := { s with pending := _ }) hstep hs

/-! ## Reset -/

/-- Settles O3: RESET's state is the model's reset value, each of whose parts the statement writes out. -/
theorem resetGivesEveryResetValue : Obligations.ResetGivesEveryResetValue := by
  intro s
  rfl

/-- Settles O8: an empty table, empty queues, and defaults that lie in their ranges. -/
theorem resetMeetsTheInvariants : Obligations.ResetMeetsTheInvariants := by
  refine ⟨fun p => ?_, by decide, tableOk_of_empty rfl rfl rfl rfl⟩
  cases p <;> rfl

/-! ## Canonical keys -/

/-- R12: the order of endpoints is total, and two endpoints each not above the other are the same. -/
theorem notAbove_total (x y : Endpoint) :
    x.notAbove y = true ∧ y.notAbove x = true ∧ x = y ∨ x.notAbove y = !y.notAbove x := by
  obtain ⟨a, p⟩ := x
  obtain ⟨b, q⟩ := y
  by_cases hab : a = b
  · subst hab
    by_cases hpq : p = q
    · subst hpq
      exact .inl (by simp [Endpoint.notAbove])
    · have : p.toNat ≠ q.toNat := mt BitVec.eq_of_toNat_eq hpq
      right
      rw [Bool.eq_iff_iff]
      simp [Endpoint.notAbove]
      omega
  · have : a.toNat ≠ b.toNat := mt BitVec.eq_of_toNat_eq hab
    right
    rw [Bool.eq_iff_iff]
    simp [Endpoint.notAbove, hab, Ne.symm hab]
    omega

theorem keyOf_comm (fam : Family) (pr : Proto) (side : Side) (x y : Endpoint) :
    keyOf fam pr side x y = keyOf fam pr side y x := by
  rcases notAbove_total x y with ⟨-, -, rfl⟩ | h
  · rfl
  · unfold keyOf
    rw [h]
    cases y.notAbove x <;> rfl

/-- R11: the first word of a key shows its side in its highest bit. -/
theorem keyHead_side (fam : Family) (pr : Proto) (side : Side) :
    (keyHead fam pr side).getLsbD 15 = (side == .outside) := by
  cases fam <;> cases pr <;> cases side <;> decide

theorem keyOf_side_ne (fam fam' : Family) (pr pr' : Proto) (x y x' y' : Endpoint) :
    keyOf fam pr .inside x y ≠ keyOf fam' pr' .outside x' y' := fun h => by
  have hk : keyHead fam pr .inside = keyHead fam' pr' .outside := (List.cons.inj h).1
  have hb := congrArg (BitVec.getLsbD · 15) hk
  rw [keyHead_side, keyHead_side] at hb
  cases hb

/-- Settles O11: the lower endpoint goes first whichever is given first, and the first word shows the side. -/
theorem canonicalKeyIgnoresTheOrderOfEndpoints : Obligations.CanonicalKeyIgnoresTheOrderOfEndpoints :=
  ⟨keyOf_comm, keyOf_side_ne⟩

end Sys2Proof.SessionTable

/-! What each shared operation changes and leaves: the entries read back after an update, and three relations that name the
fields an operation may touch. -/

namespace Sys2Proof.SessionTable

open Sys2Proof Sys2Proof.Machine Sys2Proof.Laws

variable {s t u : State}

/-! ## Tables by number -/

theorem smap_get_map {α β : Type} (es : SMap α) (g : Nat → α → β) (n : Nat) :
    SMap.get? (es.map (fun x => (x.1, g x.1 x.2))) n = (SMap.get? es n).map (g n) := by
  induction es with
  | nil => rfl
  | cons x es ih =>
    simp only [List.map_cons, SMap.get?]
    split
    · subst_vars; rfl
    · exact ih

theorem lt_of_above {α : Type} {es : SMap α} {b : Nat} (hw : SMap.above es b = true) {x : Nat × α} (hx : x ∈ es) :
    b < x.1 := by
  induction es generalizing b with
  | nil => cases hx
  | cons y es ih =>
    simp only [SMap.above, Bool.and_eq_true, decide_eq_true_eq] at hw
    rcases List.mem_cons.mp hx with rfl | hx
    · exact hw.1
    · exact hw.1.trans (ih hw.2 hx)

theorem nodup_of_above {α : Type} {es : SMap α} {b : Nat} (hw : SMap.above es b = true) : (es.map (·.1)).Nodup := by
  induction es generalizing b with
  | nil => exact List.nodup_nil
  | cons y es ih =>
    simp only [SMap.above, Bool.and_eq_true, decide_eq_true_eq] at hw
    refine List.nodup_cons.mpr ⟨fun hm => ?_, ih hw.2⟩
    obtain ⟨x, hx, e⟩ := List.mem_map.mp hm
    exact absurd (lt_of_above hw.2 hx) (e ▸ Nat.lt_irrefl _)

theorem nodup_of_wf {α : Type} {es : SMap α} (hw : SMap.wf es = true) : (es.map (·.1)).Nodup := by
  cases es with
  | nil => exact List.nodup_nil
  | cons y es =>
    refine List.nodup_cons.mpr ⟨fun hm => ?_, nodup_of_above hw⟩
    obtain ⟨x, hx, e⟩ := List.mem_map.mp hm
    exact absurd (lt_of_above hw hx) (e ▸ Nat.lt_irrefl _)

theorem smap_get_of_mem {α : Type} {es : SMap α} (hn : (es.map (·.1)).Nodup) {x : Nat × α} (hx : x ∈ es) :
    SMap.get? es x.1 = some x.2 := by
  induction es with
  | nil => cases hx
  | cons y es ih =>
    obtain ⟨hy, hn⟩ := List.nodup_cons.mp hn
    rcases List.mem_cons.mp hx with rfl | hx
    · simp [SMap.get?]
    · have : y.1 ≠ x.1 := fun e => hy (List.mem_map.mpr ⟨x, hx, e.symm⟩)
      simp only [SMap.get?, if_neg this]
      exact ih hn hx

/-! ## Entries read back after an update -/

theorem entry?_of_table (h : t.table.entries = s.table.entries) (g : Nat) : t.entry? g = s.entry? g := by
  unfold State.entry?; rw [h]

@[simp] theorem entry?_setEntry (s : State) (h g : Nat) (e : Entry) :
    (s.setEntry h e).entry? g = if g = h then some e else s.entry? g := smap_get_put _ _ _ _

@[simp] theorem entry?_modifyEntry (s : State) (h g : Nat) (f : Entry → Entry) :
    (s.modifyEntry h f).entry? g = if g = h then (s.entry? h).map f else s.entry? g := by
  unfold State.modifyEntry
  split
  · rename_i e he
    simp [he]
  · rename_i he
    split
    · subst_vars; simp [he]
    · rfl

@[simp] theorem entry?_mapAllBlocks (s : State) (f : Nat → List Nat → List Nat) (g : Nat) :
    (s.mapAllBlocks f).entry? g = (s.entry? g).map (·.mapBlocks (f g)) :=
  smap_get_map s.table.entries (fun n e => e.mapBlocks (f n)) g

@[simp] theorem entry?_mapEntries (s : State) (f : Entry → Entry) (g : Nat) :
    (s.mapEntries f).entry? g = (s.entry? g).map f := smap_get_map s.table.entries (fun _ e => f e) g

@[simp] theorem entry?_add (s : State) (c : Counter) (n g : Nat) : (s.add c n).entry? g = s.entry? g := rfl

@[simp] theorem entry?_inc (s : State) (c : Counter) (g : Nat) : (s.inc c).entry? g = s.entry? g := rfl

@[simp] theorem entry?_placeKey (s : State) (h : Nat) (side : Side) (k : Key) (g : Nat) :
    (s.placeKey h side k).entry? g = s.entry? g := rfl

@[simp] theorem entry?_addEntry (s : State) (h g : Nat) (e : Entry) :
    (s.addEntry h e).entry? g = if g = h then some e else s.entry? g := smap_get_put _ _ _ _

/-- A handle in use is listed once. -/
theorem handles_nodup (hs : s.tableOk) : s.handles.Nodup := nodup_of_wf hs.1

theorem entry?_of_mem (hs : s.tableOk) {x : Nat × Entry} (hx : x ∈ s.table.entries) : s.entry? x.1 = some x.2 :=
  smap_get_of_mem (handles_nodup hs) hx

theorem mem_handles {g : Nat} {e : Entry} (he : s.entry? g = some e) : g ∈ s.handles :=
  List.mem_map_of_mem (mem_of_get he)

/-! ## Entries -/

theorem eq_withLive {e : Entry} {d : Declared} {m : MirrorPart} {l : LivePart} (hb : e.body = .live d m l) :
    e = e.withLive d m l := by
  cases e; cases hb; rfl

theorem phase_of_live {e : Entry} {d : Declared} {m : MirrorPart} {l : LivePart} (hb : e.body = .live d m l) :
    e.phase = .live := by simp [Entry.phase, hb]

theorem phase_eq_tentative {e : Entry} : e.phase = .tentative ↔ e.body = .tentative := by
  cases hb : e.body <;> simp [Entry.phase, hb]

theorem phase_ne_free (e : Entry) : e.phase ≠ .free := by
  cases hb : e.body <;> simp [Entry.phase, hb]

theorem phase_of_entry {h : Nat} {e : Entry} (he : s.entry? h = some e) : s.phase h = e.phase := by
  simp [State.phase, he]

theorem phase_of_none {h : Nat} (he : s.entry? h = none) : s.phase h = .free := by simp [State.phase, he]

theorem phase_congr {g : Nat} (h : t.entry? g = s.entry? g) : t.phase g = s.phase g := by simp [State.phase, h]

theorem phase_of_map {g : Nat} (h : (t.entry? g).map Entry.phase = (s.entry? g).map Entry.phase) :
    t.phase g = s.phase g := by
  unfold State.phase
  cases hs : s.entry? g <;> cases ht : t.entry? g <;> simp_all

theorem entry_of_phase {h : Nat} {ph : Phase} (hp : s.phase h = ph) (hne : ph ≠ .free) :
    ∃ e, s.entry? h = some e ∧ e.phase = ph := by
  cases he : s.entry? h with
  | none => rw [phase_of_none he] at hp; exact absurd hp.symm hne
  | some e => exact ⟨e, rfl, by rw [← hp, phase_of_entry he]⟩

/-- The blocks lists of other phases are empty, and rewriting them changes nothing. -/
theorem mapBlocks_of_not_retiring {e : Entry} (h : e.phase ≠ .retiring) (g : List Nat → List Nat) : e.mapBlocks g = e := by
  unfold Entry.mapBlocks
  cases hb : e.body <;> simp_all [Entry.phase]

theorem mapBlocks_of_eq {e : Entry} {g : List Nat → List Nat} (h : g e.blocks = e.blocks) : e.mapBlocks g = e := by
  obtain ⟨fam, pr, o, i, c, n, x, b⟩ := e
  cases b <;> simp_all [Entry.mapBlocks, Entry.blocks]

theorem mapLive_of_not_live {e : Entry} (h : e.live? = none) (g : LivePart → LivePart) : e.mapLive g = e := by
  unfold Entry.mapLive
  cases hb : e.body <;> simp_all [Entry.live?]

theorem mapMirror_of_tentative {e : Entry} (h : e.body = .tentative) (g : MirrorPart → MirrorPart) : e.mapMirror g = e := by
  simp [Entry.mapMirror, h]

@[simp] theorem mirror?_mapMirror (e : Entry) (g : MirrorPart → MirrorPart) : (e.mapMirror g).mirror? = e.mirror?.map g := by
  unfold Entry.mapMirror Entry.mirror?; cases hb : e.body <;> simp [hb]

@[simp] theorem live?_mapMirror (e : Entry) (g : MirrorPart → MirrorPart) : (e.mapMirror g).live? = e.live? := by
  unfold Entry.mapMirror Entry.live?; cases hb : e.body <;> simp [hb]

@[simp] theorem declared?_mapMirror (e : Entry) (g : MirrorPart → MirrorPart) :
    (e.mapMirror g).declared? = e.declared? := by
  unfold Entry.mapMirror Entry.declared?; cases hb : e.body <;> simp [hb]

@[simp] theorem tcp_mapMirror (e : Entry) (g : MirrorPart → MirrorPart) : (e.mapMirror g).tcp = e.tcp := by
  unfold Entry.mapMirror; cases e.body <;> rfl

@[simp] theorem idleTag_mapMirror (e : Entry) (g : MirrorPart → MirrorPart) : (e.mapMirror g).idleTag = e.idleTag := by
  unfold Entry.mapMirror; cases e.body <;> rfl

@[simp] theorem outside_mapMirror (e : Entry) (g : MirrorPart → MirrorPart) : (e.mapMirror g).outside = e.outside := by
  unfold Entry.mapMirror; cases e.body <;> rfl

@[simp] theorem mirror?_mapLive (e : Entry) (g : LivePart → LivePart) : (e.mapLive g).mirror? = e.mirror? := by
  unfold Entry.mapLive Entry.mirror?; cases hb : e.body <;> simp [hb]

@[simp] theorem live?_mapLive (e : Entry) (g : LivePart → LivePart) : (e.mapLive g).live? = e.live?.map g := by
  unfold Entry.mapLive Entry.live?; cases hb : e.body <;> simp [hb]

@[simp] theorem mirror?_mapBlocks (e : Entry) (g : List Nat → List Nat) : (e.mapBlocks g).mirror? = e.mirror? := by
  unfold Entry.mapBlocks Entry.mirror?; cases hb : e.body <;> simp [hb]

@[simp] theorem live?_mapBlocks (e : Entry) (g : List Nat → List Nat) : (e.mapBlocks g).live? = e.live? := by
  unfold Entry.mapBlocks Entry.live?; cases hb : e.body <;> simp [hb]

@[simp] theorem marked_mapMirror (e : Entry) (g : MirrorPart → MirrorPart) : (e.mapMirror g).marked = e.marked := by
  simp [Entry.marked]

@[simp] theorem marked_mapBlocks (e : Entry) (g : List Nat → List Nat) : (e.mapBlocks g).marked = e.marked := by
  simp [Entry.marked]

/-! ## Which fields an operation may touch -/

/-- From `s` to `t` only entries and the lanes with the walk's count may differ. -/
def Lanes (s t : State) : Prop :=
  t = { s with
    table := { s.table with entries := t.table.entries }
    mirror := { s.mirror with urgent := t.mirror.urgent, normal := t.mirror.normal, walkPending := t.mirror.walkPending } }

/-- From `s` to `t` only the table, the lanes with the walk's count, the Park Buffer, transmit queues, counters and events may
differ. -/
def Tends (s t : State) : Prop :=
  t = { s with
    ports := t.ports, table := t.table, park := t.park, counters := t.counters, events := t.events
    mirror := { s.mirror with urgent := t.mirror.urgent, normal := t.mirror.normal, walkPending := t.mirror.walkPending } }

/-- `Tends`, and of the roles the phase, the marked count and the cutover record may differ. -/
def Works (s t : State) : Prop :=
  t = { s with
    ports := t.ports, table := t.table, park := t.park, counters := t.counters, events := t.events
    mirror := { s.mirror with urgent := t.mirror.urgent, normal := t.mirror.normal, walkPending := t.mirror.walkPending }
    role := { s.role with phase := t.role.phase, marked := t.role.marked, record := t.role.record } }

theorem Lanes.refl (s : State) : Lanes s s := rfl

theorem Tends.refl (s : State) : Tends s s := rfl

theorem Works.refl (s : State) : Works s s := rfl

theorem Lanes.trans (h : Lanes s t) (k : Lanes t u) : Lanes s u := by unfold Lanes at *; rw [k, h]

theorem Tends.trans (h : Tends s t) (k : Tends t u) : Tends s u := by unfold Tends at *; rw [k, h]

theorem Works.trans (h : Works s t) (k : Works t u) : Works s u := by unfold Works at *; rw [k, h]

theorem Lanes.tends (h : Lanes s t) : Tends s t := by unfold Lanes at h; unfold Tends; rw [h]

theorem Tends.works (h : Tends s t) : Works s t := by unfold Tends at h; unfold Works; rw [h]

theorem Lanes.works (h : Lanes s t) : Works s t := h.tends.works

theorem tends_of_sends (h : Sends s t) : Tends s t := by unfold Sends at h; unfold Tends; rw [h]

theorem Lanes.ite {c : Prop} [Decidable c] {a b : State} (ha : Lanes s a) (hb : Lanes s b) :
    Lanes s (if c then a else b) := by split <;> assumption

theorem Tends.ite {c : Prop} [Decidable c] {a b : State} (ha : Tends s a) (hb : Tends s b) :
    Tends s (if c then a else b) := by split <;> assumption

theorem Works.ite {c : Prop} [Decidable c] {a b : State} (ha : Works s a) (hb : Works s b) :
    Works s (if c then a else b) := by split <;> assumption

theorem Lanes.foldl {α : Type} {g : State → α → State} (hg : ∀ v x, Lanes v (g v x)) (xs : List α) (s : State) :
    Lanes s (xs.foldl g s) := by
  induction xs generalizing s with
  | nil => exact .refl s
  | cons x xs ih => exact (hg s x).trans (ih _)

theorem Tends.foldl {α : Type} {g : State → α → State} (hg : ∀ v x, Tends v (g v x)) (xs : List α) (s : State) :
    Tends s (xs.foldl g s) := by
  induction xs generalizing s with
  | nil => exact .refl s
  | cons x xs ih => exact (hg s x).trans (ih _)

theorem Works.foldl {α : Type} {g : State → α → State} (hg : ∀ v x, Works v (g v x)) (xs : List α) (s : State) :
    Works s (xs.foldl g s) := by
  induction xs generalizing s with
  | nil => exact .refl s
  | cons x xs ih => exact (hg s x).trans (ih _)

theorem Lanes.ports (h : Lanes s t) : t.ports = s.ports := by rw [h]

theorem Lanes.role (h : Lanes s t) : t.role = s.role := by rw [h]

theorem Lanes.park (h : Lanes s t) : t.park = s.park := by rw [h]

theorem Lanes.counters (h : Lanes s t) : t.counters = s.counters := by rw [h]

theorem Lanes.events (h : Lanes s t) : t.events = s.events := by rw [h]

theorem Lanes.slots (h : Lanes s t) : t.table.slots = s.table.slots := by rw [h]

theorem Lanes.occupancy (h : Lanes s t) : t.table.occupancy = s.table.occupancy := by rw [h]

theorem Lanes.tentative (h : Lanes s t) : t.table.tentative = s.table.tentative := by rw [h]

theorem Lanes.levels (h : Lanes s t) : t.table.levels = s.table.levels := by rw [h]

theorem Lanes.count (h : Lanes s t) (c : Counter) : t.count c = s.count c := by simp only [State.count, h.counters]

theorem Lanes.event (h : Lanes s t) (ev : EventId) : t.event ev = s.event ev := by simp only [State.event, h.events]

theorem Lanes.port (h : Lanes s t) (p : Port) : t.port p = s.port p := by simp only [State.port, h.ports]

theorem Tends.role (h : Tends s t) : t.role = s.role := by rw [h]

theorem Works.params (h : Works s t) : t.params = s.params := by rw [h]

theorem Works.health (h : Works s t) : t.health = s.health := by rw [h]

theorem Works.sweepers (h : Works s t) : t.sweepers = s.sweepers := by rw [h]

theorem Works.requests (h : Works s t) : t.requests = s.requests := by rw [h]

theorem Works.target (h : Works s t) : t.mirror.target = s.mirror.target := by rw [h]

theorem Works.mirrorState (h : Works s t) : t.mirror.state = s.mirror.state := by rw [h]

theorem Works.batches (h : Works s t) : t.mirror.slots = s.mirror.slots := by rw [h]

theorem Works.cursor (h : Works s t) : t.mirror.cursor = s.mirror.cursor := by rw [h]

theorem Works.active (h : Works s t) : t.role.active = s.role.active := by rw [h]

theorem Works.param (h : Works s t) (p : ParamId) : t.param p = s.param p := by simp only [State.param, h.params]

theorem Works.usable (h : Works s t) (f : Fw) : t.usable f = s.usable f := by
  simp only [State.usable, State.fw, h.health]

/-! ### Entries and lanes -/

theorem setEntry_lanes (s : State) (h : Nat) (e : Entry) : Lanes s (s.setEntry h e) := rfl

theorem modifyEntry_lanes (s : State) (h : Nat) (f : Entry → Entry) : Lanes s (s.modifyEntry h f) := by
  unfold State.modifyEntry
  split <;> rfl

theorem mapAllBlocks_lanes (s : State) (f : Nat → List Nat → List Nat) : Lanes s (s.mapAllBlocks f) := rfl

theorem outOfLanes_lanes (s : State) (h : Nat) : Lanes s { s with mirror := s.mirror.outOfLanes h } := rfl

theorem intoLane_lanes (s : State) (h : Nat) (ln : Lane) (b : Bool) :
    Lanes s { s with mirror := s.mirror.intoLane h ln b } := by
  cases ln <;> cases b <;> rfl

theorem unqueue_lanes (s : State) (h : Nat) : Lanes s (s.unqueue h) := (outOfLanes_lanes s h).trans (modifyEntry_lanes _ h _)

theorem lanePlace_lanes (s : State) (h : Nat) (ln : Lane) (b : Bool) (k : RecKind) : Lanes s (s.lanePlace h ln b k) :=
  ((outOfLanes_lanes s h).trans (intoLane_lanes _ h ln b)).trans (modifyEntry_lanes _ h _)

theorem setQueued_lanes (s : State) (h : Nat) (k : RecKind) : Lanes s (s.setQueued h k) := modifyEntry_lanes s h _

theorem raiseNeed_lanes (s : State) (h : Nat) (k : RecKind) : Lanes s (s.raiseNeed h k) := by
  unfold State.raiseNeed
  split
  · exact lanePlace_lanes s _ _ _ _
  · exact setQueued_lanes s _ _
  · exact .ite (lanePlace_lanes s _ _ _ _) (setQueued_lanes s _ _)

theorem toUrgentTail_lanes (s : State) (h : Nat) : Lanes s (s.toUrgentTail h) := by
  unfold State.toUrgentTail
  split
  · exact lanePlace_lanes s _ _ _ _
  · exact .refl s

theorem toUrgentHead_lanes (s : State) (h : Nat) : Lanes s (s.toUrgentHead h) := by
  unfold State.toUrgentHead
  split
  · exact lanePlace_lanes s _ _ _ _
  · exact .refl s

theorem setWaits_lanes (s : State) (h : Nat) (ws : List Nat) : Lanes s (s.setWaits h ws) :=
  (mapAllBlocks_lanes s _).trans (modifyEntry_lanes _ h _)

theorem leaveBlocks_lanes (s : State) (h : Nat) : Lanes s (s.leaveBlocks h) := mapAllBlocks_lanes s _

theorem releaseWaiters_lanes (s : State) (bs : List Nat) : Lanes s (s.releaseWaiters bs) :=
  .foldl (fun v g => modifyEntry_lanes v g _) bs s

theorem settleWalk_lanes (s : State) (h : Nat) : Lanes s (s.settleWalk h) := by
  unfold State.settleWalk
  split
  · refine .ite (Lanes.trans ?_ (modifyEntry_lanes _ h _)) (.refl s)
    exact rfl
  · exact .refl s

theorem requestRefresh_lanes (s : State) (h : Nat) : Lanes s (s.requestRefresh h) := by
  unfold State.requestRefresh
  split
  · exact .refl s
  · split
    · exact .ite (.refl s) (.ite (raiseNeed_lanes s h _) (.refl s))
    · exact .refl s

theorem driftTest_lanes (s : State) (h : Nat) (d : Dir) : Lanes s (s.driftTest h d) := by
  unfold State.driftTest
  split
  · split
    · exact .ite (requestRefresh_lanes s h) (.refl s)
    · exact .refl s
  · exact .refl s

theorem refreshIdle_lanes (s : State) (h : Nat) : Lanes s (s.refreshIdle h) := modifyEntry_lanes s h _

theorem clearInflight_lanes (s : State) (h : Nat) : Lanes s (s.clearInflight h) := modifyEntry_lanes s h _

theorem putBackOne_lanes (s : State) (r : BatchRecord) : Lanes s (s.putBackOne r) := by
  unfold State.putBackOne
  split
  · exact .refl s
  · exact (clearInflight_lanes s _).trans (lanePlace_lanes _ _ _ _ _)

theorem putBack_lanes (s : State) (rs : List BatchRecord) : Lanes s (s.putBack rs) := .foldl putBackOne_lanes _ s

theorem putFromOther_lanes (s : State) (h : Nat) : Lanes s (s.putFromOther h) := by
  unfold State.putFromOther
  have k1 := modifyEntry_lanes s h (·.mapLive (fun l => { l with unprotected := false }))
  refine .ite k1 (Lanes.trans ?_ (raiseNeed_lanes _ h _))
  split
  · exact .ite ((k1.trans (modifyEntry_lanes _ h _)).trans (settleWalk_lanes _ h)) (k1.trans (modifyEntry_lanes _ h _))
  · exact k1.trans (modifyEntry_lanes _ h _)

/-! ### The table and the Park Buffer -/

theorem inc_tends (s : State) (c : Counter) : Tends s (s.inc c) := rfl

theorem table_tends (s : State) (tb : Table) : Tends s { s with table := tb } := rfl

theorem park_tends (s : State) (p : Park) : Tends s { s with park := p } := rfl

theorem handTx_tends (s : State) (p : Port) (f : Frame) : Tends s (s.handTx p f) := tends_of_sends (handTx_sends s p f)

theorem raise_tends (s : State) (ev : EventId) (bs : List Byte) : Tends s (s.raise ev bs) :=
  tends_of_sends (raise_sends s ev bs)

theorem compareTableLevel_tends (s : State) (n : Fin 3) : Tends s (s.compareTableLevel n) :=
  .ite ((table_tends s _).trans (raise_tends _ _ _)) (.refl s)

theorem compareTable_tends (s : State) : Tends s s.compareTable :=
  ((compareTableLevel_tends s 0).trans (compareTableLevel_tends _ 1)).trans (compareTableLevel_tends _ 2)

theorem compareParkLevel_tends (s : State) (n : Fin 3) : Tends s (s.compareParkLevel n) :=
  .ite ((park_tends s _).trans (raise_tends _ _ _)) (.refl s)

theorem comparePark_tends (s : State) : Tends s s.comparePark :=
  ((compareParkLevel_tends s 0).trans (compareParkLevel_tends _ 1)).trans (compareParkLevel_tends _ 2)

theorem freeCells_tends (s : State) (p : Parked) : Tends s (s.freeCells p) := (park_tends s _).trans (comparePark_tends _)

theorem leaveRelease_tends (s : State) (h : Nat) : Tends s (s.leaveRelease h) := park_tends s _

theorem discardFrames_tends (s : State) (ps : List Parked) : Tends s (s.discardFrames ps) :=
  .foldl (fun v p => (freeCells_tends v p).trans (inc_tends _ _)) ps s

theorem discardChain_tends (s : State) (h : Nat) : Tends s (s.discardChain h) := by
  unfold State.discardChain
  split
  · exact ((discardFrames_tends s _).trans (modifyEntry_lanes _ h _).tends).trans (leaveRelease_tends _ h)
  · exact .refl s

theorem removeEntry_tends (s : State) (h : Nat) (e : Entry) : Tends s (s.removeEntry h e) := by
  unfold State.removeEntry
  refine Tends.trans ?_ (compareTable_tends _)
  exact rfl

theorem joinRelease_tends (s : State) (h : Nat) : Tends s (s.joinRelease h) := by
  unfold State.joinRelease
  split
  · exact .ite (.refl s) (park_tends s _)
  · exact .refl s

theorem trackFrame_tends (s : State) (h : Nat) (p : Port) (v : SessionView) : Tends s (s.trackFrame h p v) := by
  unfold State.trackFrame
  split
  · exact .refl s
  · refine .ite (.refl s) ?_
    split
    · dsimp only
      exact .ite (((setEntry_lanes s h _).tends.trans (.ite (inc_tends _ _) (.refl _))).trans (driftTest_lanes _ h _).tends)
        ((setEntry_lanes s h _).tends.trans (.ite (inc_tends _ _) (.refl _)))
    · exact .refl s

theorem forwardMatched_tends (s : State) (h : Nat) (p q : Port) (v : SessionView) (f : Frame) :
    Tends s (s.forwardMatched h p q v f) :=
  .ite (((handTx_tends s q f).trans (refreshIdle_lanes _ h).tends).trans (trackFrame_tends _ h p v)) (handTx_tends s q f)

theorem releaseFrame_tends (s : State) (h : Nat) (p : Parked) (rest : List Parked) : Tends s (s.releaseFrame h p rest) := by
  unfold State.releaseFrame
  have k := (modifyEntry_lanes s h (·.mapLive (fun l => { l with chain := rest }))).tends.trans (freeCells_tends _ p)
  dsimp only
  split
  · exact (k.trans (.ite (inc_tends _ _) (.refl _))).trans (forwardMatched_tends _ h _ _ _ _)
  · exact (k.trans (.ite (inc_tends _ _) (.refl _))).trans (handTx_tends _ _ _)

theorem releaseFrames_tends (n : Nat) (s : State) (h : Nat) : Tends s (State.releaseFrames n s h) := by
  induction n generalizing s with
  | zero => exact .refl s
  | succ n ih =>
    unfold State.releaseFrames
    split
    · exact (releaseFrame_tends s h _ _).trans (ih _)
    · exact .refl s

theorem endTurn_tends (s : State) (h : Nat) : Tends s (s.endTurn h) := by
  unfold State.endTurn
  split
  · exact .ite (modifyEntry_lanes s h _).tends (joinRelease_tends s h)
  · exact .refl s

/-! ### Marks, and entries freed and retired -/

theorem toSettle_works (s : State) : Works s s.toSettle := .ite rfl (.refl s)

theorem unmark_works (s : State) (h : Nat) : Works s (s.unmark h) := by
  unfold State.unmark
  refine .ite (Works.trans (Works.trans ?_ (modifyEntry_lanes _ h _).works) (toSettle_works _)) (.refl s)
  exact rfl

theorem tallyMark_works (s : State) (how : MarkEnd) : Works s (s.tallyMark how) := by cases how <;> rfl

theorem clearMark_works (s : State) (h : Nat) (how : MarkEnd) : Works s (s.clearMark h how) :=
  .ite (((tallyMark_works s how).trans (unmark_works _ h)).trans (joinRelease_tends _ h).works) (.refl s)

theorem clearAllMarks_works (s : State) (how : MarkEnd) : Works s (s.clearAllMarks how) :=
  .foldl (fun v h => clearMark_works v h how) _ s

theorem freeEntry_works (s : State) (h : Nat) : Works s (s.freeEntry h) := by
  unfold State.freeEntry
  split
  · exact .refl s
  · rename_i e _
    refine Works.trans ?_ (removeEntry_tends _ h e).works
    refine Works.trans ?_ (unmark_works _ h)
    refine (Tends.trans ?_ (discardChain_tends _ h)).works
    refine (Lanes.trans (Lanes.trans ?_ (unqueue_lanes _ h)) (settleWalk_lanes _ h)).tends
    exact .ite (releaseWaiters_lanes s _) ((releaseWaiters_lanes s _).trans (leaveBlocks_lanes _ h))

theorem freeAll_works (s : State) (hs : List Nat) : Works s (s.freeAll hs) := .foldl freeEntry_works hs s

theorem becomeRetiring_works (s : State) (h : Nat) (e : Entry) : Works s (s.becomeRetiring h e) := by
  unfold State.becomeRetiring
  have k1 : Lanes s (if e.waits = 0 then s else s.leaveBlocks h) := .ite (.refl s) (leaveBlocks_lanes s h)
  have k2 := ((k1.tends.trans (discardChain_tends _ h)).works.trans (unmark_works _ h)).trans
    (modifyEntry_lanes _ h Entry.toRetiring).works
  dsimp only
  split
  · exact k2.trans (setQueued_lanes _ h _).works
  · exact k2.trans (lanePlace_lanes _ h _ _ _).works

theorem retire_works (s : State) (h : Nat) : Works s (s.retire h) := by
  unfold State.retire
  split
  · exact .refl s
  · split
    · exact freeEntry_works s h
    · exact .ite (becomeRetiring_works s h _) (freeEntry_works s h)
    · exact .refl s
    · exact .refl s

end Sys2Proof.SessionTable

/-! Occurrences of events and comparisons with the levels (R6, R181, R210, R211, R214). -/

namespace Sys2Proof.SessionTable

open Sys2Proof Sys2Proof.Machine Sys2Proof.Laws

variable {s t u : State}

/-! ## Occurrences -/

theorem raise_event (s : State) (ev d : EventId) (ps : List Byte) :
    (s.raise ev ps).event d = if d = ev then (s.event ev).next else s.event d := by
  rw [← event_latch]
  simp only [State.event, raise_events]

theorem raise_entry? (s : State) (ev : EventId) (ps : List Byte) (g : Nat) : (s.raise ev ps).entry? g = s.entry? g :=
  entry?_of_table (by rw [(raise_sends s ev ps).table]) g

theorem next_eq (e : EventState) :
    e.next = { flag := true, count := if e.flag then min (e.count + 1) 65535 else 1 } := by
  unfold EventState.next
  split <;> rfl

theorem handTx_of_canHand {p : Port} {f : Frame} (h : s.canHand p = true) : s.handTx p f = s.queued p f := by
  rcases handTx_cases s p f with ⟨-, e⟩ | ⟨hc, -⟩
  · exact e
  · rw [h] at hc; cases hc

theorem canHand_of_hasRoom {p : Port} (h : s.hasRoom p 1) : s.canHand p = true := by
  obtain ⟨hl, hr⟩ := h
  simp only [State.canHand, hl, beq_self_eq_true, Bool.true_and, decide_eq_true_eq]
  exact hr

theorem handTx_port_ne {p q : Port} (hq : q ≠ p) (f : Frame) : (s.handTx p f).port q = s.port q := by
  rcases handTx_cases s p f with ⟨-, e⟩ | ⟨-, e⟩ <;> rw [e]
  · rw [State.queued, port_setPort, if_neg hq]
  · rfl

/-- What a NOTICE carries is not changed by handing frames over. -/
theorem noticeFrame_handTx (s : State) (q p : Port) (f : Frame) (ev : EventId) (ps : List Byte) :
    (s.handTx q f).noticeFrame p ev ps = s.noticeFrame p ev ps := by
  have k := handTx_sends s q f
  have ke : (s.handTx q f).event ev = s.event ev := by simp only [State.event, handTx_events]
  simp only [State.noticeFrame, State.noticeDst, State.unitAddress, State.param, State.fw, k.health, k.params, ke]

/-- R211: a port that no NOTICE goes to keeps its queue. -/
theorem sendNotices_port_off {p : Port} {ps : List Port} (hp : p ∉ ps) (s : State) (ev : EventId) (bs : List Byte) :
    (s.sendNotices ps ev bs).port p = s.port p := by
  unfold State.sendNotices
  induction ps generalizing s with
  | nil => rfl
  | cons q ps ih =>
    obtain ⟨hq, hp⟩ := List.ne_and_not_mem_of_not_mem_cons hp
    exact (ih hp _).trans (handTx_port_ne hq _)

/-- R211: each port of the list gets one NOTICE at the tail of its queue, when it has room. -/
theorem sendNotices_port_on {p : Port} {ps : List Port} (hn : ps.Nodup) (hp : p ∈ ps) (hr : s.hasRoom p 1) (ev : EventId)
    (bs : List Byte) : ((s.sendNotices ps ev bs).port p).tx = (s.port p).tx ++ [s.noticeFrame p ev bs] := by
  induction ps generalizing s with
  | nil => cases hp
  | cons q ps ih =>
    obtain ⟨hq, hn⟩ := List.nodup_cons.mp hn
    have hcons : s.sendNotices (q :: ps) ev bs = (s.handTx q (s.noticeFrame q ev bs)).sendNotices ps ev bs := rfl
    rw [hcons]
    by_cases hqp : p = q
    · subst hqp
      rw [sendNotices_port_off hq, handTx_of_canHand (canHand_of_hasRoom hr), State.queued, port_setPort, if_pos rfl]
    · have hk := handTx_port_ne (s := s) hqp (s.noticeFrame q ev bs)
      rw [ih hn ((List.mem_cons.mp hp).resolve_left hqp) (by unfold State.hasRoom at hr ⊢; rwa [hk]), hk,
        noticeFrame_handTx]

theorem noticePorts_nodup (s : State) : s.noticePorts.Nodup := by
  unfold State.noticePorts
  split <;> split <;> split <;> decide

theorem inPort_mem_noticePorts (s : State) (f : Fw) :
    f.inPort ∈ s.noticePorts ↔ (s.param .noticeTargets).testBit (Fw.code f - 1) = true := by
  cases f <;> simp [State.noticePorts, Fw.inPort, Fw.code]

theorem lan_mem_noticePorts (s : State) :
    Port.lan ∈ s.noticePorts ↔ (s.param .noticeTargets).testBit 2 = true ∧ s.param .lanManagement = 1 := by
  simp [State.noticePorts, State.lanOn]

/-- R211: no NOTICE leaves by the WAN port or an OUT port. -/
theorem mem_noticePorts {p : Port} (hp : p ∈ s.noticePorts) : p = .aIn ∨ p = .bIn ∨ p = .lan := by
  cases p <;> simp_all [State.noticePorts]

/-- R211: an occurrence from clear of an enabled event sends a NOTICE to each port of the target set. -/
theorem occurrencePorts_of_clear {ev : EventId} (hf : (s.event ev).flag = false) (he : s.noticeEnabled ev = true) :
    s.occurrencePorts ev = s.noticePorts := by
  simp [State.occurrencePorts, hf, he]

theorem occurrencePorts_nil {ev : EventId} (h : (s.event ev).flag = true ∨ s.noticeEnabled ev = false) :
    s.occurrencePorts ev = [] := by
  rcases h with h | h <;> simp [State.occurrencePorts, h]

theorem mem_occurrencePorts {ev : EventId} {p : Port} (hp : p ∈ s.occurrencePorts ev) : p ∈ s.noticePorts := by
  unfold State.occurrencePorts at hp
  split at hp
  · cases hp
  · split at hp
    · exact hp
    · cases hp

/-- An occurrence leaves the queues of the WAN port and of the OUT ports. -/
theorem raise_port_off {p : Port} (hp : p ≠ .aIn ∧ p ≠ .bIn ∧ p ≠ .lan) (s : State) (ev : EventId) (bs : List Byte) :
    (s.raise ev bs).port p = s.port p := by
  refine sendNotices_port_off (fun hm => ?_) (s.latch ev) ev bs
  rcases mem_noticePorts (mem_occurrencePorts hm) with rfl | rfl | rfl
  exacts [hp.1 rfl, hp.2.1 rfl, hp.2.2 rfl]

theorem raise_port_on {p : Port} {ev : EventId} (hf : (s.event ev).flag = false) (he : s.noticeEnabled ev = true)
    (hp : p ∈ s.noticePorts) (hr : s.hasRoom p 1) (bs : List Byte) :
    ((s.raise ev bs).port p).tx = (s.port p).tx ++ [ccfFrame (s.noticeDst p) s.unitAddress .notice 0#8 0#8 1#16
      (be1 (ev.index.val + 1) ++ be1 bs.length ++ bs)] := by
  have hev : (s.latch ev).event ev = { flag := true, count := 1 } := by
    rw [event_latch, if_pos rfl, next_eq, hf]; rfl
  have hn := occurrencePorts_of_clear hf he ▸ noticePorts_nodup s
  refine (sendNotices_port_on (s := s.latch ev) hn (occurrencePorts_of_clear hf he ▸ hp) hr ev bs).trans ?_
  simp only [State.noticeFrame, hev]
  rfl

/-! ## Comparisons with three levels -/

/-- The comparison `cmp` with one level, applied to the three levels in turn. -/
def compareThree (cmp : State → Fin 3 → State) (s : State) : State := cmp (cmp (cmp s 0) 1) 2

/-- What a comparison with level `n` does: it is made where the level is newly reached, and then sets that flag and latches the
event once more. -/
structure Compares (new : State → Fin 3 → Bool) (levels : State → Levels) (ev : EventId) (cmp : State → Fin 3 → State) :
    Prop where
  skip : ∀ s n, new s n = false → cmp s n = s
  others : ∀ s n k, k ≠ n → new (cmp s n) k = new s k
  level : ∀ s n k, (levels (cmp s n)).get k = ((levels s).get k || (decide (k = n) && new s n))
  event : ∀ s n, (cmp s n).event ev = if new s n then (s.event ev).next else s.event ev

namespace Compares

variable {new : State → Fin 3 → Bool} {levels : State → Levels} {ev : EventId} {cmp : State → Fin 3 → State}

theorem three_new (c : Compares new levels ev cmp) (s : State) :
    new (cmp s 0) 1 = new s 1 ∧ new (cmp (cmp s 0) 1) 2 = new s 2 :=
  ⟨c.others s 0 1 (by decide), (c.others _ 1 2 (by decide)).trans (c.others s 0 2 (by decide))⟩

theorem three_level (c : Compares new levels ev cmp) (s : State) (n : Fin 3) :
    (levels (compareThree cmp s)).get n = ((levels s).get n || new s n) := by
  obtain ⟨h1, h2⟩ := c.three_new s
  simp only [compareThree, c.level, h1, h2]
  fin_cases n <;> simp

theorem three_event (c : Compares new levels ev cmp) (s : State) :
    (compareThree cmp s).event ev = (([0, 1, 2] : List (Fin 3)).filter (new s)).foldl (fun e _ => e.next) (s.event ev) := by
  obtain ⟨h1, h2⟩ := c.three_new s
  simp only [compareThree, c.event, h1, h2]
  cases h0 : new s 0 <;> cases h1 : new s 1 <;> cases h2 : new s 2 <;> simp [h0, h1, h2]

theorem three_skip (c : Compares new levels ev cmp) (h : ∀ n, new s n = false) : compareThree cmp s = s := by
  simp only [compareThree, c.skip s 0 (h 0), c.skip s 1 (h 1), c.skip s 2 (h 2)]

theorem three_one (c : Compares new levels ev cmp) {n : Fin 3} (h : ∀ k, k ≠ n → new s k = false) :
    compareThree cmp s = cmp s n := by
  have before : ∀ k, k ≠ n → cmp s k = s := fun k hk => c.skip s k (h k hk)
  have after : ∀ k, k ≠ n → cmp (cmp s n) k = cmp s n := fun k hk => c.skip _ k ((c.others s n k hk).trans (h k hk))
  unfold compareThree
  fin_cases n
  · exact (congrArg (cmp · 2) (after 1 (by decide))).trans (after 2 (by decide))
  · rw [before 0 (by decide)]; exact after 2 (by decide)
  · rw [before 0 (by decide), before 1 (by decide)]; rfl

end Compares

theorem levels_get_set (l : Levels) (n k : Fin 3) (b : Bool) : (l.set n b).get k = if k = n then b else l.get k := by
  fin_cases n <;> fin_cases k <;> rfl

/-- R6: the level is reached and its flag clear. -/
def tableNew (s : State) (n : Fin 3) : Bool := !s.table.levels.get n && s.tableReached n

/-- R181: the level is reached and its flag clear. -/
def parkNew (s : State) (n : Fin 3) : Bool := !s.park.levels.get n && s.parkReached n

theorem compareTableLevel_eq (s : State) (n : Fin 3) :
    s.compareTableLevel n = if tableNew s n then { s with table := { s.table with levels := s.table.levels.set n true } }.raise
      .tableLevel (be1 (n.val + 1) ++ be2 s.table.occupancy) else s := by
  unfold State.compareTableLevel tableNew
  rw [Bool.and_comm]

theorem compareParkLevel_eq (s : State) (n : Fin 3) :
    s.compareParkLevel n = if parkNew s n then { s with park := { s.park with levels := s.park.levels.set n true } }.raise
      .parkLevel (be1 (n.val + 1) ++ be2 s.park.cellsInUse) else s := by
  unfold State.compareParkLevel parkNew
  rw [Bool.and_comm]

theorem compareTableLevel_table (s : State) (n : Fin 3) :
    (s.compareTableLevel n).table =
      { s.table with levels := if tableNew s n then s.table.levels.set n true else s.table.levels } := by
  rw [compareTableLevel_eq]
  split
  · exact (raise_sends _ _ _).table
  · rfl

theorem compareParkLevel_park (s : State) (n : Fin 3) :
    (s.compareParkLevel n).park =
      { s.park with levels := if parkNew s n then s.park.levels.set n true else s.park.levels } := by
  rw [compareParkLevel_eq]
  split
  · exact (raise_sends _ _ _).park
  · rfl

theorem compareTableLevel_compares : Compares tableNew (·.table.levels) .tableLevel State.compareTableLevel where
  skip s n h := by rw [compareTableLevel_eq, h]; rfl
  others s n k hk := by
    have hl : (s.compareTableLevel n).table.levels.get k = s.table.levels.get k := by
      rw [compareTableLevel_table]
      split
      · exact (levels_get_set _ n k true).trans (if_neg hk)
      · rfl
    have ho : (s.compareTableLevel n).table.occupancy = s.table.occupancy := by rw [compareTableLevel_table]
    simp only [tableNew, State.tableReached, (compareTableLevel_tends s n).works.param, hl, ho]
  level s n k := by
    rw [compareTableLevel_table]
    by_cases hk : k = n <;> cases hn : tableNew s n <;> simp [levels_get_set, hk]
  event s n := by
    rw [compareTableLevel_eq]
    split
    · rw [raise_event, if_pos rfl]; rfl
    · rfl

theorem compareParkLevel_compares : Compares parkNew (·.park.levels) .parkLevel State.compareParkLevel where
  skip s n h := by rw [compareParkLevel_eq, h]; rfl
  others s n k hk := by
    have hl : (s.compareParkLevel n).park.levels.get k = s.park.levels.get k := by
      rw [compareParkLevel_park]
      split
      · exact (levels_get_set _ n k true).trans (if_neg hk)
      · rfl
    have ho : (s.compareParkLevel n).park.cellsInUse = s.park.cellsInUse := by rw [compareParkLevel_park]
    simp only [parkNew, State.parkReached, (compareParkLevel_tends s n).works.param, hl, ho]
  level s n k := by
    rw [compareParkLevel_park]
    by_cases hk : k = n <;> cases hn : parkNew s n <;> simp [levels_get_set, hk]
  event s n := by
    rw [compareParkLevel_eq]
    split
    · rw [raise_event, if_pos rfl]; rfl
    · rfl

/-- R6, R211: a comparison of the table occupancy moves the table's level flags and sends notices, and nothing else. -/
def RaisesTable (s t : State) : Prop :=
  t = { s with ports := t.ports, counters := t.counters, events := t.events, table := { s.table with levels := t.table.levels } }

/-- R181, R211: a comparison of the cells in use moves the park level flags and sends notices, and nothing else. -/
def RaisesPark (s t : State) : Prop :=
  t = { s with ports := t.ports, counters := t.counters, events := t.events, park := { s.park with levels := t.park.levels } }

theorem RaisesTable.trans (h : RaisesTable s t) (k : RaisesTable t u) : RaisesTable s u := by
  unfold RaisesTable at *; rw [k, h]

theorem RaisesTable.table (h : RaisesTable s t) : t.table = { s.table with levels := t.table.levels } :=
  congrArg State.table h

theorem RaisesTable.mirror (h : RaisesTable s t) : t.mirror = s.mirror := by rw [h]

theorem RaisesTable.park (h : RaisesTable s t) : t.park = s.park := by rw [h]

theorem RaisesPark.table (h : RaisesPark s t) : t.table = s.table := by rw [h]

theorem RaisesPark.park (h : RaisesPark s t) : t.park = { s.park with levels := t.park.levels } := congrArg State.park h

theorem RaisesPark.trans (h : RaisesPark s t) (k : RaisesPark t u) : RaisesPark s u := by
  unfold RaisesPark at *; rw [k, h]

theorem compareTableLevel_raises (s : State) (n : Fin 3) : RaisesTable s (s.compareTableLevel n) := by
  rw [compareTableLevel_eq]
  split
  · unfold RaisesTable; rw [raise_sends]
  · rfl

theorem compareParkLevel_raises (s : State) (n : Fin 3) : RaisesPark s (s.compareParkLevel n) := by
  rw [compareParkLevel_eq]
  split
  · unfold RaisesPark; rw [raise_sends]
  · rfl

theorem compareTable_raises (s : State) : RaisesTable s s.compareTable :=
  ((compareTableLevel_raises s 0).trans (compareTableLevel_raises _ 1)).trans (compareTableLevel_raises _ 2)

theorem comparePark_raises (s : State) : RaisesPark s s.comparePark :=
  ((compareParkLevel_raises s 0).trans (compareParkLevel_raises _ 1)).trans (compareParkLevel_raises _ 2)

/-- What three comparisons with one level keep of a field, each comparison keeps. -/
theorem compareThree_keeps {α : Type} {f : State → α} {cmp : State → Fin 3 → State} (h : ∀ v n, f (cmp v n) = f v)
    (s : State) : f (compareThree cmp s) = f s := ((h _ 2).trans (h _ 1)).trans (h s 0)

theorem compareTableLevel_count (s : State) (n : Fin 3) {c : Counter} (hc : c ≠ .txDrop) :
    (s.compareTableLevel n).count c = s.count c := by
  rw [compareTableLevel_eq]
  split
  · exact raise_count _ _ _ hc
  · rfl

theorem compareParkLevel_count (s : State) (n : Fin 3) {c : Counter} (hc : c ≠ .txDrop) :
    (s.compareParkLevel n).count c = s.count c := by
  rw [compareParkLevel_eq]
  split
  · exact raise_count _ _ _ hc
  · rfl

theorem compareTableLevel_event (s : State) (n : Fin 3) {ev : EventId} (he : ev ≠ .tableLevel) :
    (s.compareTableLevel n).event ev = s.event ev := by
  rw [compareTableLevel_eq]
  split
  · rw [raise_event, if_neg he]; rfl
  · rfl

theorem compareParkLevel_event (s : State) (n : Fin 3) {ev : EventId} (he : ev ≠ .parkLevel) :
    (s.compareParkLevel n).event ev = s.event ev := by
  rw [compareParkLevel_eq]
  split
  · rw [raise_event, if_neg he]; rfl
  · rfl

theorem compareTableLevel_port (s : State) (n : Fin 3) {p : Port} (hp : p ≠ .aIn ∧ p ≠ .bIn ∧ p ≠ .lan) :
    (s.compareTableLevel n).port p = s.port p := by
  rw [compareTableLevel_eq]
  split
  · exact raise_port_off hp _ _ _
  · rfl

theorem compareParkLevel_port (s : State) (n : Fin 3) {p : Port} (hp : p ≠ .aIn ∧ p ≠ .bIn ∧ p ≠ .lan) :
    (s.compareParkLevel n).port p = s.port p := by
  rw [compareParkLevel_eq]
  split
  · exact raise_port_off hp _ _ _
  · rfl

theorem compareTable_count (s : State) {c : Counter} (hc : c ≠ .txDrop) : s.compareTable.count c = s.count c :=
  compareThree_keeps (f := (·.count c)) (fun v n => compareTableLevel_count v n hc) s

theorem comparePark_count (s : State) {c : Counter} (hc : c ≠ .txDrop) : s.comparePark.count c = s.count c :=
  compareThree_keeps (f := (·.count c)) (fun v n => compareParkLevel_count v n hc) s

theorem compareTable_event (s : State) {ev : EventId} (he : ev ≠ .tableLevel) : s.compareTable.event ev = s.event ev :=
  compareThree_keeps (f := (·.event ev)) (fun v n => compareTableLevel_event v n he) s

theorem comparePark_event (s : State) {ev : EventId} (he : ev ≠ .parkLevel) : s.comparePark.event ev = s.event ev :=
  compareThree_keeps (f := (·.event ev)) (fun v n => compareParkLevel_event v n he) s

theorem compareTable_port (s : State) {p : Port} (hp : p ≠ .aIn ∧ p ≠ .bIn ∧ p ≠ .lan) :
    s.compareTable.port p = s.port p :=
  compareThree_keeps (f := (·.port p)) (fun v n => compareTableLevel_port v n hp) s

theorem comparePark_port (s : State) {p : Port} (hp : p ≠ .aIn ∧ p ≠ .bIn ∧ p ≠ .lan) : s.comparePark.port p = s.port p :=
  compareThree_keeps (f := (·.port p)) (fun v n => compareParkLevel_port v n hp) s

theorem compareTable_table (s : State) : s.compareTable.table = { s.table with levels := s.compareTable.table.levels } :=
  (compareTable_raises s).table

theorem comparePark_table (s : State) : s.comparePark.table = s.table := (comparePark_raises s).table

theorem comparePark_park (s : State) : s.comparePark.park = { s.park with levels := s.comparePark.park.levels } :=
  (comparePark_raises s).park

@[simp] theorem compareTable_entry? (s : State) (g : Nat) : s.compareTable.entry? g = s.entry? g :=
  entry?_of_table (by rw [compareTable_table]) g

@[simp] theorem comparePark_entry? (s : State) (g : Nat) : s.comparePark.entry? g = s.entry? g :=
  entry?_of_table (by rw [comparePark_table]) g

/-! ## The statement -/

/-- R210, R211: what one occurrence does, to its own flag and to the ports of the target set. -/
theorem raise_latches_and_notifies (s : State) (ev : EventId) (ps : List Byte) :
    (s.raise ev ps).event ev = { flag := true, count := if (s.event ev).flag then min ((s.event ev).count + 1) 65535 else 1 } ∧
    (∀ d, d ≠ ev → (s.raise ev ps).event d = s.event d) ∧
    (((s.event ev).flag = true ∨ (s.param .noticeEnable).testBit ev.index.val = false) → (s.raise ev ps).ports = s.ports) := by
  refine ⟨?_, fun d hd => ?_, fun h => ?_⟩
  · rw [raise_event, if_pos rfl, next_eq]
  · rw [raise_event, if_neg hd]
  · unfold State.raise
    rw [occurrencePorts_nil h]
    rfl

/-- Settles O60: the notices by induction on the target ports, the comparisons level by level. -/
theorem occurrenceLatchesAndNotifiesOnce : Obligations.OccurrenceLatchesAndNotifiesOnce := by
  refine ⟨fun s ev ps => ?_, fun s => ?_, fun s => ?_⟩
  · obtain ⟨h1, h2, h3⟩ := raise_latches_and_notifies s ev ps
    refine ⟨h1, h2, h3, fun hf he => ⟨fun f hb hr => ?_, fun hb hl hr => ?_, fun h => ?_⟩⟩
    · refine (raise_port_on hf he ((inPort_mem_noticePorts s f).mpr hb) hr ps).trans ?_
      cases f <;> rfl
    · exact raise_port_on hf he ((lan_mem_noticePorts s).mpr ⟨hb, hl⟩) hr ps
    · refine sendNotices_port_off (fun hm => ?_) (s.latch ev) ev ps
      obtain ⟨hb, hl⟩ := (lan_mem_noticePorts s).mp (mem_occurrencePorts hm)
      rcases h with h | h
      · rw [hb] at h; cases h
      · exact h hl
  · have c := compareTableLevel_compares
    refine ⟨compareTable_raises s, c.three_level s, c.three_event s, c.three_skip, fun n hn hk => ?_⟩
    refine (c.three_one (s := s) hk).trans ?_
    rw [compareTableLevel_eq, if_pos (show tableNew s n = true from hn)]
  · have c := compareParkLevel_compares
    refine ⟨comparePark_raises s, c.three_level s, c.three_event s, c.three_skip, fun n hn hk => ?_⟩
    refine (c.three_one (s := s) hk).trans ?_
    rw [compareParkLevel_eq, if_pos (show parkNew s n = true from hn)]

end Sys2Proof.SessionTable

/-! Freeing and retiring (R7, R8, R62, R95): what becomes of the entry, of the others, of the slots, lanes, counts and roles. -/

namespace Sys2Proof.SessionTable

open Sys2Proof Sys2Proof.Machine Sys2Proof.Laws

variable {s t u : State}

/-! ## Operations on the entry at one handle -/

theorem othersKept_refl (s : State) (h : Nat) : s.othersKept s h := fun _ _ => rfl

theorem othersKept_trans {h : Nat} (k1 : s.othersKept t h) (k2 : t.othersKept u h) : s.othersKept u h :=
  fun g hg => (k2 g hg).trans (k1 g hg)

theorem othersKept_of_table (h : Nat) (ht : t.table.entries = s.table.entries) : s.othersKept t h :=
  fun g _ => entry?_of_table ht g

theorem othersKept_of_sends (h : Nat) (k : Sends s t) : s.othersKept t h := othersKept_of_table h (by rw [k.table])

theorem othersKept_ite {c : Prop} [Decidable c] {a b : State} {h : Nat} (ha : s.othersKept a h) (hb : s.othersKept b h) :
    s.othersKept (if c then a else b) h := by split <;> assumption

theorem setEntry_others (s : State) (h : Nat) (e : Entry) : s.othersKept (s.setEntry h e) h :=
  fun g hg => by rw [entry?_setEntry, if_neg hg]

theorem modifyEntry_others (s : State) (h : Nat) (f : Entry → Entry) : s.othersKept (s.modifyEntry h f) h :=
  fun g hg => by rw [entry?_modifyEntry, if_neg hg]

theorem modifyEntry_self (s : State) (h : Nat) (f : Entry → Entry) : (s.modifyEntry h f).entry? h = (s.entry? h).map f := by
  rw [entry?_modifyEntry, if_pos rfl]

theorem modifyEntry_of_entry {h : Nat} {e : Entry} (he : s.entry? h = some e) (f : Entry → Entry) :
    s.modifyEntry h f = s.setEntry h (f e) := by simp [State.modifyEntry, he]

@[simp] theorem modifyEntry_mirror (s : State) (h : Nat) (f : Entry → Entry) : (s.modifyEntry h f).mirror = s.mirror := by
  unfold State.modifyEntry; split <;> rfl

@[simp] theorem modifyEntry_role (s : State) (h : Nat) (f : Entry → Entry) : (s.modifyEntry h f).role = s.role :=
  (modifyEntry_lanes s h f).role

@[simp] theorem modifyEntry_park (s : State) (h : Nat) (f : Entry → Entry) : (s.modifyEntry h f).park = s.park :=
  (modifyEntry_lanes s h f).park

theorem unqueue_others (s : State) (h : Nat) : s.othersKept (s.unqueue h) h :=
  modifyEntry_others { s with mirror := s.mirror.outOfLanes h } h _

theorem unqueue_self (s : State) (h : Nat) : (s.unqueue h).entry? h =
    (s.entry? h).map (·.mapMirror (fun m => { m with lane := none, queued := none })) :=
  modifyEntry_self { s with mirror := s.mirror.outOfLanes h } h _

theorem lanePlace_others (s : State) (h : Nat) (ln : Lane) (b : Bool) (k : RecKind) :
    s.othersKept (s.lanePlace h ln b k) h :=
  modifyEntry_others { s with mirror := (s.mirror.outOfLanes h).intoLane h ln b } h _

theorem lanePlace_self (s : State) (h : Nat) (ln : Lane) (b : Bool) (k : RecKind) : (s.lanePlace h ln b k).entry? h =
    (s.entry? h).map (·.mapMirror (fun m => { m with lane := some ln, queued := some k })) :=
  modifyEntry_self { s with mirror := (s.mirror.outOfLanes h).intoLane h ln b } h _

theorem setQueued_others (s : State) (h : Nat) (k : RecKind) : s.othersKept (s.setQueued h k) h := modifyEntry_others s h _

theorem setQueued_self (s : State) (h : Nat) (k : RecKind) : (s.setQueued h k).entry? h =
    (s.entry? h).map (·.mapMirror (fun m => { m with queued := some k })) := modifyEntry_self s h _

theorem raiseNeed_others (s : State) (h : Nat) (k : RecKind) : s.othersKept (s.raiseNeed h k) h := by
  unfold State.raiseNeed
  split
  · exact lanePlace_others s h _ _ _
  · exact setQueued_others s h _
  · exact othersKept_ite (lanePlace_others s h _ _ _) (setQueued_others s h _)

theorem toUrgentTail_others (s : State) (h : Nat) : s.othersKept (s.toUrgentTail h) h := by
  unfold State.toUrgentTail
  split
  · exact lanePlace_others s h _ _ _
  · exact othersKept_refl s h

theorem toUrgentHead_others (s : State) (h : Nat) : s.othersKept (s.toUrgentHead h) h := by
  unfold State.toUrgentHead
  split
  · exact lanePlace_others s h _ _ _
  · exact othersKept_refl s h

theorem settleWalk_others (s : State) (h : Nat) : s.othersKept (s.settleWalk h) h := by
  unfold State.settleWalk
  split
  · exact othersKept_ite
      (modifyEntry_others { s with mirror := { s.mirror with walkPending := s.mirror.walkPending - 1 } } h _)
      (othersKept_refl s h)
  · exact othersKept_refl s h

/-- R115: clearing a walk flag leaves the lanes. -/
theorem settleWalk_queues (s : State) (h : Nat) :
    (s.settleWalk h).mirror.urgent = s.mirror.urgent ∧ (s.settleWalk h).mirror.normal = s.mirror.normal := by
  unfold State.settleWalk
  split
  · split <;> simp
  · exact ⟨rfl, rfl⟩

theorem settleWalk_live? (s : State) (h : Nat) :
    ((s.settleWalk h).entry? h).map Entry.live? = (s.entry? h).map Entry.live? := by
  unfold State.settleWalk
  split
  · split
    · rw [modifyEntry_self, Option.map_map]
      exact Option.map_congr (fun e _ => live?_mapMirror e _)
    · rfl
  · rfl

/-! ## Cells -/

/-- From `s` to `t` only the Park Buffer, transmit queues, counters and events may differ. -/
def Cells (s t : State) : Prop :=
  t = { s with ports := t.ports, park := t.park, counters := t.counters, events := t.events }

theorem Cells.refl (s : State) : Cells s s := rfl

theorem Cells.trans (h : Cells s t) (k : Cells t u) : Cells s u := by unfold Cells at *; rw [k, h]

theorem Cells.table (h : Cells s t) : t.table = s.table := by rw [h]

theorem Cells.mirror (h : Cells s t) : t.mirror = s.mirror := by rw [h]

theorem Cells.role (h : Cells s t) : t.role = s.role := by rw [h]

theorem Cells.entry? (h : Cells s t) (g : Nat) : t.entry? g = s.entry? g := entry?_of_table (by rw [h.table]) g

theorem inc_cells (s : State) (c : Counter) : Cells s (s.inc c) := rfl

theorem event_inc (s : State) (c : Counter) (ev : EventId) : (s.inc c).event ev = s.event ev := rfl

theorem freeCells_cells (s : State) (p : Parked) : Cells s (s.freeCells p) := by
  unfold State.freeCells Cells
  rw [comparePark_raises]

theorem freeCells_count (s : State) (p : Parked) {c : Counter} (hc : c ≠ .txDrop) : (s.freeCells p).count c = s.count c :=
  comparePark_count _ hc

theorem freeCells_event (s : State) (p : Parked) {ev : EventId} (he : ev ≠ .parkLevel) :
    (s.freeCells p).event ev = s.event ev := comparePark_event _ he

theorem discardFrames_cons (s : State) (p : Parked) (ps : List Parked) :
    s.discardFrames (p :: ps) = ((s.freeCells p).inc .parkDiscarded).discardFrames ps := by
  rw [State.discardFrames, List.foldl_cons, State.discardFrames]

theorem discardFrames_cells (s : State) (ps : List Parked) : Cells s (s.discardFrames ps) := by
  induction ps generalizing s with
  | nil => exact .refl s
  | cons p ps ih =>
    rw [discardFrames_cons]
    exact ((freeCells_cells s p).trans (inc_cells _ _)).trans (ih _)

theorem discardFrames_count (s : State) (ps : List Parked) {c : Counter} (hc : c ≠ .txDrop) (hd : c ≠ .parkDiscarded) :
    (s.discardFrames ps).count c = s.count c := by
  induction ps generalizing s with
  | nil => rfl
  | cons p ps ih => rw [discardFrames_cons, ih, count_inc, if_neg hd, freeCells_count s p hc]

theorem discardFrames_event (s : State) (ps : List Parked) {ev : EventId} (he : ev ≠ .parkLevel) :
    (s.discardFrames ps).event ev = s.event ev := by
  induction ps generalizing s with
  | nil => rfl
  | cons p ps ih => rw [discardFrames_cons, ih, event_inc, freeCells_event s p he]

theorem discardChain_of_entry {h : Nat} {e : Entry} (he : s.entry? h = some e) : s.discardChain h =
    ((s.discardFrames e.chain).modifyEntry h (·.mapLive (fun l => { l with chain := [] }))).leaveRelease h := by
  simp [State.discardChain, he]

theorem discardChain_of_none {h : Nat} (he : s.entry? h = none) : s.discardChain h = s := by
  simp [State.discardChain, he]

theorem discardChain_others (s : State) (h : Nat) : s.othersKept (s.discardChain h) h := by
  cases he : s.entry? h with
  | none => rw [discardChain_of_none he]; exact othersKept_refl s h
  | some e =>
    rw [discardChain_of_entry he]
    exact othersKept_trans (fun g _ => (discardFrames_cells s e.chain).entry? g) (modifyEntry_others _ h _)

theorem discardChain_self (s : State) (h : Nat) :
    (s.discardChain h).entry? h = (s.entry? h).map (·.mapLive (fun l => { l with chain := [] })) := by
  cases he : s.entry? h with
  | none => rw [discardChain_of_none he, he]; rfl
  | some e =>
    rw [discardChain_of_entry he]
    refine (modifyEntry_self (s.discardFrames e.chain) h _).trans ?_
    rw [(discardFrames_cells s e.chain).entry?, he]

theorem discardChain_mirror (s : State) (h : Nat) : (s.discardChain h).mirror = s.mirror := by
  cases he : s.entry? h with
  | none => rw [discardChain_of_none he]
  | some e =>
    rw [discardChain_of_entry he]
    exact (modifyEntry_mirror _ h _).trans (discardFrames_cells s e.chain).mirror

theorem discardChain_role (s : State) (h : Nat) : (s.discardChain h).role = s.role := (discardChain_tends s h).role

theorem discardChain_count (s : State) (h : Nat) {c : Counter} (hc : c ≠ .txDrop) (hd : c ≠ .parkDiscarded) :
    (s.discardChain h).count c = s.count c := by
  cases he : s.entry? h with
  | none => rw [discardChain_of_none he]
  | some e =>
    rw [discardChain_of_entry he]
    exact ((modifyEntry_lanes _ h _).count c).trans (discardFrames_count s e.chain hc hd)

theorem discardChain_event (s : State) (h : Nat) {ev : EventId} (hev : ev ≠ .parkLevel) :
    (s.discardChain h).event ev = s.event ev := by
  cases he : s.entry? h with
  | none => rw [discardChain_of_none he]
  | some e =>
    rw [discardChain_of_entry he]
    exact ((modifyEntry_lanes _ h _).event ev).trans (discardFrames_event s e.chain hev)

/-! ## Marks -/

theorem isMarked_of_entry {h : Nat} {e : Entry} (he : s.entry? h = some e) : s.isMarked h = e.marked := by
  simp [State.isMarked, he]

theorem isMarked_congr {h : Nat} (k : (t.entry? h).map Entry.marked = (s.entry? h).map Entry.marked) :
    t.isMarked h = s.isMarked h := by
  unfold State.isMarked
  cases hs : s.entry? h <;> cases ht : t.entry? h <;> simp_all

theorem isMarked_of_same {h : Nat} (k : t.entry? h = s.entry? h) : t.isMarked h = s.isMarked h :=
  isMarked_congr (by rw [k])

theorem entry_of_isMarked {h : Nat} (hm : s.isMarked h = true) : ∃ e, s.entry? h = some e ∧ e.marked = true := by
  unfold State.isMarked at hm
  split at hm
  · exact ⟨_, by assumption, hm⟩
  · cases hm

theorem mapLive_unmarked {e : Entry} (hm : e.marked = false) : e.mapLive (fun l => { l with marked := false }) = e := by
  obtain ⟨fam, pr, o, i, c, n, x, b⟩ := e
  cases b with
  | live d m l => cases l; simp_all [Entry.mapLive, Entry.marked, Entry.live?]
  | tentative => rfl
  | retiring d m bs => rfl

/-- R155, R159: the roles after a mark has been cleared. -/
def unmarkedRole (r : Role) : Role :=
  if r.phase = .transfer ∧ r.marked - 1 = 0 then { r with marked := r.marked - 1, phase := .settle }
  else { r with marked := r.marked - 1 }

theorem unmark_of_unmarked {h : Nat} (hm : s.isMarked h = false) : s.unmark h = s := by simp [State.unmark, hm]

theorem unmark_of_marked {h : Nat} (hm : s.isMarked h = true) : s.unmark h =
    ({ s with role := { s.role with marked := s.role.marked - 1 } }.modifyEntry h
      (·.mapLive (fun l => { l with marked := false }))).toSettle := by simp [State.unmark, hm]

theorem toSettle_role (s : State) : s.toSettle.role =
    if s.role.phase = .transfer ∧ s.role.marked = 0 then { s.role with phase := .settle } else s.role := by
  unfold State.toSettle
  split <;> rfl

theorem toSettle_eq (s : State) : s.toSettle = { s with role := s.toSettle.role } := by
  unfold State.toSettle
  split <;> rfl

theorem unmark_role (s : State) (h : Nat) :
    (s.unmark h).role = if s.isMarked h then unmarkedRole s.role else s.role := by
  cases hm : s.isMarked h with
  | false => rw [unmark_of_unmarked hm]; rfl
  | true =>
    rw [unmark_of_marked hm, toSettle_role, if_pos rfl]
    simp [unmarkedRole]

theorem unmark_self (s : State) (h : Nat) :
    (s.unmark h).entry? h = (s.entry? h).map (·.mapLive (fun l => { l with marked := false })) := by
  cases hm : s.isMarked h with
  | false =>
    rw [unmark_of_unmarked hm]
    cases he : s.entry? h with
    | none => rfl
    | some e => rw [Option.map_some, mapLive_unmarked ((isMarked_of_entry he).symm.trans hm)]
  | true =>
    rw [unmark_of_marked hm, toSettle_eq]
    exact modifyEntry_self { s with role := _ } h _

theorem unmark_others (s : State) (h : Nat) : s.othersKept (s.unmark h) h := by
  cases hm : s.isMarked h with
  | false => rw [unmark_of_unmarked hm]; exact othersKept_refl s h
  | true =>
    rw [unmark_of_marked hm, toSettle_eq]
    exact modifyEntry_others { s with role := _ } h _

theorem unmark_mirror (s : State) (h : Nat) : (s.unmark h).mirror = s.mirror := by
  cases hm : s.isMarked h with
  | false => rw [unmark_of_unmarked hm]
  | true =>
    rw [unmark_of_marked hm, toSettle_eq]
    exact modifyEntry_mirror { s with role := _ } h _

theorem unmark_park (s : State) (h : Nat) : (s.unmark h).park = s.park := by
  cases hm : s.isMarked h with
  | false => rw [unmark_of_unmarked hm]
  | true =>
    rw [unmark_of_marked hm, toSettle_eq]
    exact modifyEntry_park { s with role := _ } h _

theorem unmark_counters (s : State) (h : Nat) : (s.unmark h).counters = s.counters := by
  cases hm : s.isMarked h with
  | false => rw [unmark_of_unmarked hm]
  | true =>
    rw [unmark_of_marked hm, toSettle_eq]
    exact (modifyEntry_lanes { s with role := _ } h _).counters

theorem unmark_events (s : State) (h : Nat) : (s.unmark h).events = s.events := by
  cases hm : s.isMarked h with
  | false => rw [unmark_of_unmarked hm]
  | true =>
    rw [unmark_of_marked hm, toSettle_eq]
    exact (modifyEntry_lanes { s with role := _ } h _).events

/-! ## Freeing -/

@[simp] theorem releaseWaiters_nil (s : State) : s.releaseWaiters [] = s := rfl

theorem releaseWaiters_mirror (s : State) (bs : List Nat) : (s.releaseWaiters bs).mirror = s.mirror := by
  unfold State.releaseWaiters
  induction bs generalizing s with
  | nil => rfl
  | cons b bs ih => exact (ih _).trans (modifyEntry_mirror s b _)

/-- R8: an entry that is not LIVE loses no wait. -/
theorem releaseWaiters_not_live {g : Nat} {x : Entry} (bs : List Nat) (hx : s.entry? g = some x) (hl : x.live? = none) :
    (s.releaseWaiters bs).entry? g = some x := by
  unfold State.releaseWaiters
  induction bs generalizing s with
  | nil => exact hx
  | cons b bs ih =>
    refine ih ?_
    rw [entry?_modifyEntry]
    split
    · subst_vars; rw [hx, Option.map_some, mapLive_of_not_live hl]
    · exact hx

theorem releaseWaiters_off {g : Nat} {bs : List Nat} (hg : g ∉ bs) (s : State) :
    (s.releaseWaiters bs).entry? g = s.entry? g := by
  unfold State.releaseWaiters
  induction bs generalizing s with
  | nil => rfl
  | cons b bs ih =>
    obtain ⟨hb, hbs⟩ := List.ne_and_not_mem_of_not_mem_cons hg
    exact (ih hbs _).trans (modifyEntry_others s b _ g hb)

/-- R8: an entry in the blocks list, which names it once, loses one wait. -/
theorem releaseWaiters_on {g : Nat} {bs : List Nat} (hn : bs.Nodup) (hg : g ∈ bs) (s : State) :
    (s.releaseWaiters bs).entry? g = (s.entry? g).map (·.mapLive (fun l => { l with waits := l.waits - 1 })) := by
  induction bs generalizing s with
  | nil => cases hg
  | cons b bs ih =>
    obtain ⟨hb, hn⟩ := List.nodup_cons.mp hn
    have hcons : s.releaseWaiters (b :: bs) =
        (s.modifyEntry b (·.mapLive (fun l => { l with waits := l.waits - 1 }))).releaseWaiters bs := rfl
    rw [hcons]
    by_cases hgb : g = b
    · subst hgb
      rw [releaseWaiters_off hb, modifyEntry_self]
    · rw [ih hn ((List.mem_cons.mp hg).resolve_left hgb), modifyEntry_others s b _ g hgb]

/-- R62: what the entries other than a freed or retired one become: its waiters lose a wait, and it leaves the blocks lists. -/
def unblocked (s : State) (h : Nat) (e : Entry) : State :=
  if e.waits = 0 then s.releaseWaiters e.blocks else (s.releaseWaiters e.blocks).leaveBlocks h

/-- R8: the state just before an entry's slots, fields and handle are given back. -/
def cleared (s : State) (h : Nat) (e : Entry) : State :=
  ((((unblocked s h e).unqueue h).settleWalk h).discardChain h).unmark h

theorem freeEntry_of_entry {h : Nat} {e : Entry} (he : s.entry? h = some e) :
    s.freeEntry h = (cleared s h e).removeEntry h e := by
  unfold State.freeEntry
  rw [he]
  rfl

theorem freeEntry_of_none {h : Nat} (he : s.entry? h = none) : s.freeEntry h = s := by
  unfold State.freeEntry
  rw [he]

theorem unblocked_lanes (s : State) (h : Nat) (e : Entry) : Lanes s (unblocked s h e) :=
  .ite (releaseWaiters_lanes s _) ((releaseWaiters_lanes s _).trans (leaveBlocks_lanes _ h))

theorem unblocked_mirror (s : State) (h : Nat) (e : Entry) : (unblocked s h e).mirror = s.mirror := by
  unfold unblocked
  split <;> exact releaseWaiters_mirror s _

theorem cleared_held (s : State) (h : Nat) (e : Entry) : Held s (cleared s h e) := by
  have k1 : Held s (unblocked s h e) :=
    .ite (fun _ => releaseWaiters_held s _) (fun _ => (releaseWaiters_held s _).trans (leaveBlocks_held _ h))
  exact (((k1.trans (unqueue_held _ h)).trans (settleWalk_held _ h)).trans (discardChain_held _ h)).trans (unmark_held _ h)

theorem cleared_others (s : State) (h : Nat) (e : Entry) : (unblocked s h e).othersKept (cleared s h e) h :=
  othersKept_trans (othersKept_trans (othersKept_trans (unqueue_others _ h) (settleWalk_others _ h)) (discardChain_others _ h))
    (unmark_others _ h)

theorem live?_leaveBlocks (s : State) (h g : Nat) :
    ((s.leaveBlocks h).entry? g).map Entry.live? = (s.entry? g).map Entry.live? := by
  unfold State.leaveBlocks
  rw [entry?_mapAllBlocks, Option.map_map]
  exact Option.map_congr (fun e _ => live?_mapBlocks e _)

theorem marked_of_live? {h : Nat} (k : (t.entry? h).map Entry.live? = (s.entry? h).map Entry.live?) :
    t.isMarked h = s.isMarked h := by
  unfold State.isMarked Entry.marked
  cases hs : s.entry? h <;> cases ht : t.entry? h <;> simp_all

theorem releaseWaiters_isMarked (s : State) (bs : List Nat) (h : Nat) : (s.releaseWaiters bs).isMarked h = s.isMarked h := by
  unfold State.releaseWaiters
  induction bs generalizing s with
  | nil => rfl
  | cons b bs ih =>
    refine (ih _).trans (isMarked_congr ?_)
    rw [entry?_modifyEntry]
    split
    · subst_vars
      rw [Option.map_map]
      refine Option.map_congr (fun e _ => ?_)
      unfold Entry.marked
      cases hl : e.live? <;> simp [hl]
    · rfl

theorem unblocked_isMarked (s : State) (h g : Nat) (e : Entry) : (unblocked s h e).isMarked g = s.isMarked g := by
  unfold unblocked
  split
  · exact releaseWaiters_isMarked s _ g
  · exact (marked_of_live? (live?_leaveBlocks _ h g)).trans (releaseWaiters_isMarked s _ g)

theorem unqueue_isMarked (s : State) (h : Nat) : (s.unqueue h).isMarked h = s.isMarked h := by
  refine marked_of_live? ?_
  rw [unqueue_self, Option.map_map]
  exact Option.map_congr (fun e _ => live?_mapMirror e _)

theorem discardChain_isMarked (s : State) (h : Nat) : (s.discardChain h).isMarked h = s.isMarked h := by
  refine isMarked_congr ?_
  rw [discardChain_self, Option.map_map]
  refine Option.map_congr (fun e _ => ?_)
  unfold Entry.marked
  cases hl : e.live? <;> simp [hl]

theorem cleared_role (s : State) (h : Nat) (e : Entry) :
    (cleared s h e).role = if s.isMarked h then unmarkedRole s.role else s.role := by
  have hm : ((((unblocked s h e).unqueue h).settleWalk h).discardChain h).isMarked h = s.isMarked h := by
    rw [discardChain_isMarked, marked_of_live? (settleWalk_live? _ h), unqueue_isMarked, unblocked_isMarked]
  have hr : ((((unblocked s h e).unqueue h).settleWalk h).discardChain h).role = s.role := by
    rw [discardChain_role, (settleWalk_lanes _ h).role, (unqueue_lanes _ h).role, (unblocked_lanes s h e).role]
  exact (unmark_role _ h).trans (by rw [hm, hr])

theorem cleared_queues (s : State) (h : Nat) (e : Entry) :
    (cleared s h e).mirror.urgent = s.mirror.urgent.filter (· != h) ∧
      (cleared s h e).mirror.normal = s.mirror.normal.filter (· != h) := by
  have hm : (cleared s h e).mirror = (((unblocked s h e).unqueue h).settleWalk h).mirror :=
    (unmark_mirror _ h).trans (discardChain_mirror _ h)
  have hq : ((unblocked s h e).unqueue h).mirror = s.mirror.outOfLanes h := by
    rw [← unblocked_mirror s h e]
    exact modifyEntry_mirror { unblocked s h e with mirror := _ } h _
  obtain ⟨h1, h2⟩ := settleWalk_queues ((unblocked s h e).unqueue h) h
  rw [hm, h1, h2, hq]
  exact ⟨rfl, rfl⟩

theorem cleared_count (s : State) (h : Nat) (e : Entry) {c : Counter} (hc : c ≠ .txDrop) (hd : c ≠ .parkDiscarded) :
    (cleared s h e).count c = s.count c := by
  have h1 : (cleared s h e).count c = (((unblocked s h e).unqueue h).settleWalk h).count c := by
    refine Eq.trans ?_ (discardChain_count _ h hc hd)
    simp only [State.count]
    rw [cleared, unmark_counters]
  rw [h1, (settleWalk_lanes _ h).count, (unqueue_lanes _ h).count, (unblocked_lanes s h e).count]

theorem cleared_event (s : State) (h : Nat) (e : Entry) {ev : EventId} (hev : ev ≠ .parkLevel) :
    (cleared s h e).event ev = s.event ev := by
  have h1 : (cleared s h e).event ev = (((unblocked s h e).unqueue h).settleWalk h).event ev := by
    refine Eq.trans ?_ (discardChain_event _ h hev)
    simp only [State.event]
    rw [cleared, unmark_events]
  rw [h1, (settleWalk_lanes _ h).event, (unqueue_lanes _ h).event, (unblocked_lanes s h e).event]

/-- What `Held` keeps of the two counts of the table. -/
theorem held_occupancy (k : Held s t) (hs : s.tableOk) :
    t.table.occupancy = s.table.occupancy ∧ t.table.tentative = s.table.tentative := by
  have hsh := k.shape hs
  obtain ⟨-, -, -, k4, k5⟩ := k.table hs
  obtain ⟨-, -, -, h4, h5⟩ := hs
  exact ⟨by rw [k4, h4, ← length_shape, hsh, length_shape], by rw [k5, h5, tentatives_shape, hsh, tentatives_shape]⟩

theorem removeEntry_table (s : State) (h : Nat) (e : Entry) : ∃ l, (s.removeEntry h e).table =
    { entries := SMap.del s.table.entries h
      slots := SMap.del (SMap.del s.table.slots (2 * h)) (2 * h + 1)
      occupancy := s.table.occupancy - 1
      tentative := if e.phase = Phase.tentative then s.table.tentative - 1 else s.table.tentative
      levels := l } := ⟨_, compareTable_table _⟩

theorem removeEntry_role (s : State) (h : Nat) (e : Entry) : (s.removeEntry h e).role = s.role := (removeEntry_tends s h e).role

theorem removeEntry_mirror (s : State) (h : Nat) (e : Entry) : (s.removeEntry h e).mirror = s.mirror :=
  (compareTable_raises _).mirror

theorem removeEntry_count (s : State) (h : Nat) (e : Entry) {c : Counter} (hc : c ≠ .txDrop) :
    (s.removeEntry h e).count c = if c = .entriesFreed then min (s.count .entriesFreed + 1) Config.counterMax else s.count c :=
  (compareTable_count _ hc).trans (count_inc _ _ _)

theorem removeEntry_event (s : State) (h : Nat) (e : Entry) {ev : EventId} (hev : ev ≠ .tableLevel) :
    (s.removeEntry h e).event ev = s.event ev := compareTable_event _ hev

/-- R8: what freeing an entry in use leaves of the table, its canonical form given. -/
theorem freeEntry_table {h : Nat} {e : Entry} (hs : s.tableOk) (he : s.entry? h = some e) :
    (s.freeEntry h).entry? h = none ∧
      (∀ g, g ≠ h → (s.freeEntry h).entry? g = (unblocked s h e).entry? g) ∧
      SMap.get? (s.freeEntry h).table.slots (2 * h) = none ∧ SMap.get? (s.freeEntry h).table.slots (2 * h + 1) = none ∧
      (s.freeEntry h).table.occupancy = s.table.occupancy - 1 ∧
      (s.freeEntry h).table.tentative = if e.phase = .tentative then s.table.tentative - 1 else s.table.tentative := by
  have k := cleared_held s h e
  obtain ⟨hw, hk, -⟩ := k.table hs
  obtain ⟨ho, hn⟩ := held_occupancy k hs
  obtain ⟨l, ht⟩ := removeEntry_table (cleared s h e) h e
  have hd : ∀ g, (s.freeEntry h).entry? g = if g = h then none else (cleared s h e).entry? g := fun g => by
    rw [freeEntry_of_entry he]
    unfold State.entry?
    rw [ht]
    exact smap_get_del h g hw
  refine ⟨by rw [hd, if_pos rfl], fun g hg => by rw [hd, if_neg hg]; exact cleared_others s h e g hg, ?_⟩
  rw [freeEntry_of_entry he, ht]
  refine ⟨?_, ?_, by rw [← ho], by rw [← hn]⟩
  · rw [smap_get_del _ _ (smap_wf_del _ hk), if_neg (by omega), smap_get_del _ _ hk, if_pos rfl]
  · rw [smap_get_del _ _ (smap_wf_del _ hk), if_pos rfl]

theorem freeEntry_role (s : State) (h : Nat) :
    (s.freeEntry h).role = if s.isMarked h then unmarkedRole s.role else s.role := by
  cases he : s.entry? h with
  | none => rw [freeEntry_of_none he]; simp [State.isMarked, he]
  | some e => rw [freeEntry_of_entry he, removeEntry_role, cleared_role]

theorem freeEntry_queues {h : Nat} {e : Entry} (he : s.entry? h = some e) :
    (s.freeEntry h).mirror.urgent = s.mirror.urgent.filter (· != h) ∧
      (s.freeEntry h).mirror.normal = s.mirror.normal.filter (· != h) := by
  rw [freeEntry_of_entry he, removeEntry_mirror]
  exact cleared_queues s h e

theorem freeEntry_entriesFreed {h : Nat} {e : Entry} (he : s.entry? h = some e) :
    (s.freeEntry h).count .entriesFreed = min (s.count .entriesFreed + 1) Config.counterMax := by
  rw [freeEntry_of_entry he, removeEntry_count _ _ _ (by decide), if_pos rfl, cleared_count s h e (by decide) (by decide)]

/-- R8: the entries that a freed TENTATIVE or LIVE entry does not wait behind are as they were. -/
theorem freeEntry_keeps {h g : Nat} {e x : Entry} (hs : s.tableOk) (he : s.entry? h = some e) (hg : g ≠ h)
    (hx : s.entry? g = some x) (hb : e.blocks = []) (hw : e.waits = 0 ∨ x.phase ≠ .retiring) :
    (s.freeEntry h).entry? g = some x := by
  obtain ⟨-, ho, -⟩ := freeEntry_table hs he
  rw [ho g hg]
  unfold unblocked
  rw [hb, releaseWaiters_nil]
  split
  · exact hx
  · rename_i hne
    rw [State.leaveBlocks, entry?_mapAllBlocks, hx, Option.map_some,
      mapBlocks_of_not_retiring (hw.resolve_left hne)]

/-! ## What freeing and retiring count and latch -/

/-- From `s` to `t` only the counters and events of freeing and retiring may have moved. -/
structure Frees (s t : State) : Prop where
  counts : ∀ c, c ≠ .txDrop → c ≠ .parkDiscarded → c ≠ .entriesFreed → t.count c = s.count c
  events : ∀ ev, ev ≠ .tableLevel → ev ≠ .parkLevel → t.event ev = s.event ev

theorem Frees.refl (s : State) : Frees s s := ⟨fun _ _ _ _ => rfl, fun _ _ _ => rfl⟩

theorem Frees.trans (h : Frees s t) (k : Frees t u) : Frees s u :=
  ⟨fun c h1 h2 h3 => (k.counts c h1 h2 h3).trans (h.counts c h1 h2 h3), fun ev h1 h2 => (k.events ev h1 h2).trans (h.events ev h1 h2)⟩

theorem Lanes.frees (h : Lanes s t) : Frees s t := ⟨fun c _ _ _ => h.count c, fun ev _ _ => h.event ev⟩

theorem freeEntry_frees (s : State) (h : Nat) : Frees s (s.freeEntry h) := by
  cases he : s.entry? h with
  | none => rw [freeEntry_of_none he]; exact .refl s
  | some e =>
    rw [freeEntry_of_entry he]
    exact ⟨fun c h1 h2 h3 => by rw [removeEntry_count _ _ _ h1, if_neg h3, cleared_count s h e h1 h2],
      fun ev h1 h2 => by rw [removeEntry_event _ _ _ h1, cleared_event s h e h2]⟩

theorem freeAll_frees (s : State) (hs : List Nat) : Frees s (s.freeAll hs) := by
  unfold State.freeAll
  induction hs generalizing s with
  | nil => exact .refl s
  | cons h hs ih => exact (freeEntry_frees s h).trans (ih _)

/-! ## Retiring -/

/-- R7: the state just before a LIVE entry's phase moves. -/
def withdrawn (s : State) (h : Nat) (e : Entry) : State :=
  ((if e.waits = 0 then s else s.leaveBlocks h).discardChain h).unmark h

theorem leftBlocks_lanes (s : State) (h : Nat) (e : Entry) : Lanes s (if e.waits = 0 then s else s.leaveBlocks h) :=
  .ite (.refl s) (leaveBlocks_lanes s h)

theorem withdrawn_frees (s : State) (h : Nat) (e : Entry) : Frees s (withdrawn s h e) := by
  refine (leftBlocks_lanes s h e).frees.trans ⟨fun c h1 h2 _ => ?_, fun ev _ h2 => ?_⟩
  · refine Eq.trans ?_ (discardChain_count _ h h1 h2)
    simp only [State.count, withdrawn, unmark_counters]
  · refine Eq.trans ?_ (discardChain_event _ h h2)
    simp only [State.event, withdrawn, unmark_events]

/-- A LIVE entry's own blocks list is none, so leaving the lists of others does not touch it. -/
theorem leftBlocks_self {h : Nat} {e : Entry} (he : s.entry? h = some e) (hp : e.phase ≠ .retiring) :
    (if e.waits = 0 then s else s.leaveBlocks h).entry? h = some e := by
  split
  · exact he
  · rw [State.leaveBlocks, entry?_mapAllBlocks, he, Option.map_some, mapBlocks_of_not_retiring hp]

theorem withdrawn_self {h : Nat} {e : Entry} {d : Declared} {m : MirrorPart} {l : LivePart} (he : s.entry? h = some e)
    (hb : e.body = .live d m l) :
    (withdrawn s h e).entry? h = some (e.withLive d m { l with chain := [], marked := false }) := by
  have hp : e.phase ≠ .retiring := by rw [phase_of_live hb]; decide
  unfold withdrawn
  rw [unmark_self, discardChain_self, leftBlocks_self he hp, eq_withLive hb]
  rfl

theorem withdrawn_role {h : Nat} {e : Entry} (he : s.entry? h = some e) (hp : e.phase ≠ .retiring) :
    (withdrawn s h e).role = if s.isMarked h then unmarkedRole s.role else s.role := by
  unfold withdrawn
  rw [unmark_role, discardChain_isMarked, discardChain_role, (leftBlocks_lanes s h e).role,
    isMarked_of_entry (leftBlocks_self he hp), isMarked_of_entry he]

/-- R7: the entry RETIRING, its RETIRE not yet queued. -/
def retyped (s : State) (h : Nat) (e : Entry) : State := (withdrawn s h e).modifyEntry h Entry.toRetiring

theorem becomeRetiring_of_queued {h : Nat} {e : Entry} {ln : Lane} (hl : (retyped s h e).laneOf h = some ln) :
    s.becomeRetiring h e = (retyped s h e).setQueued h .retire := by
  simp only [retyped, withdrawn] at hl
  simp only [State.becomeRetiring, hl]
  rfl

theorem becomeRetiring_of_unqueued {h : Nat} {e : Entry} (hl : (retyped s h e).laneOf h = none) :
    s.becomeRetiring h e = (retyped s h e).lanePlace h
      (if e.marked || s.role.phase == .quiesce then .urgent else .normal) false .retire := by
  simp only [retyped, withdrawn] at hl
  simp only [State.becomeRetiring, hl]
  rfl

/-- What queuing the RETIRE keeps of the entry made RETIRING holds after. -/
theorem becomeRetiring_cases {P : State → Prop} {h : Nat} {e : Entry} (h1 : P ((retyped s h e).setQueued h .retire))
    (h2 : ∀ ln, P ((retyped s h e).lanePlace h ln false .retire)) : P (s.becomeRetiring h e) := by
  cases hl : (retyped s h e).laneOf h with
  | some ln => rw [becomeRetiring_of_queued hl]; exact h1
  | none => rw [becomeRetiring_of_unqueued hl]; exact h2 _

/-- R95: the lane in which a RETIRE is queued: that of an entry already queued, else by the mark and the phase. -/
def retireLane (s : State) (m : MirrorPart) (l : LivePart) : Lane :=
  m.lane.getD (if l.marked = true ∨ s.role.phase = .quiesce then .urgent else .normal)

/-- R7, R95: a LIVE entry becomes RETIRING with its RETIRE queued. -/
theorem becomeRetiring_self {h : Nat} {e : Entry} {d : Declared} {m : MirrorPart} {l : LivePart} (he : s.entry? h = some e)
    (hb : e.body = .live d m l) : (s.becomeRetiring h e).entry? h = some { e with
      body := .retiring d { m with lane := some (retireLane s m l), queued := some .retire } [] } := by
  have h1 : (retyped s h e).entry? h = some { e with body := .retiring d m [] } := by
    rw [retyped, modifyEntry_self, withdrawn_self he hb]; rfl
  have h2 : (retyped s h e).laneOf h = m.lane := by
    unfold State.laneOf; rw [h1]; rfl
  have hm : e.marked = l.marked := by simp [Entry.marked, Entry.live?, hb]
  cases hl : m.lane with
  | some ln =>
    rw [becomeRetiring_of_queued (h2.trans hl), setQueued_self, h1]
    simp [Entry.mapMirror, retireLane, hl]
  | none =>
    rw [becomeRetiring_of_unqueued (h2.trans hl), lanePlace_self, h1]
    simp [Entry.mapMirror, retireLane, hl, hm]

theorem becomeRetiring_others (s : State) (h : Nat) (e : Entry) :
    (if e.waits = 0 then s else s.leaveBlocks h).othersKept (s.becomeRetiring h e) h := by
  have k : (if e.waits = 0 then s else s.leaveBlocks h).othersKept (retyped s h e) h :=
    othersKept_trans (othersKept_trans (discardChain_others _ h) (unmark_others _ h)) (modifyEntry_others _ h _)
  exact becomeRetiring_cases (P := (State.othersKept _ · h)) (othersKept_trans k (setQueued_others _ h _))
    (fun ln => othersKept_trans k (lanePlace_others _ h ln _ _))

theorem becomeRetiring_role {h : Nat} {e : Entry} (he : s.entry? h = some e) (hp : e.phase ≠ .retiring) :
    (s.becomeRetiring h e).role = if s.isMarked h then unmarkedRole s.role else s.role := by
  rw [← withdrawn_role he hp, ← modifyEntry_role (withdrawn s h e) h Entry.toRetiring]
  exact becomeRetiring_cases (P := fun v => v.role = (retyped s h e).role) (setQueued_lanes _ h _).role
    (fun ln => (lanePlace_lanes _ h ln _ _).role)

theorem becomeRetiring_frees (s : State) (h : Nat) (e : Entry) : Frees s (s.becomeRetiring h e) := by
  have k : Frees s (retyped s h e) := (withdrawn_frees s h e).trans (modifyEntry_lanes _ h _).frees
  exact becomeRetiring_cases (k.trans (setQueued_lanes _ h _).frees) (fun ln => k.trans (lanePlace_lanes _ h ln _ _).frees)

/-- R7: what a retire comes to, by the phase of the entry. -/
theorem retire_of_tentative {h : Nat} {e : Entry} (he : s.entry? h = some e) (hp : e.phase = .tentative) :
    s.retire h = s.freeEntry h := by simp [State.retire, he, hp]

theorem retire_of_live {h : Nat} {e : Entry} (he : s.entry? h = some e) (hp : e.phase = .live) :
    s.retire h = if e.mayBeHeld then s.becomeRetiring h e else s.freeEntry h := by simp [State.retire, he, hp]

theorem retire_of_retiring {h : Nat} {e : Entry} (he : s.entry? h = some e) (hp : e.phase = .retiring) :
    s.retire h = s := by simp [State.retire, he, hp]

theorem retire_of_none {h : Nat} (he : s.entry? h = none) : s.retire h = s := by simp [State.retire, he]

/-- What holds of freeing, of becoming RETIRING and of no change holds of a retire. -/
theorem retire_cases {P : State → Prop} {s : State} {h : Nat} (h0 : P s) (h1 : P (s.freeEntry h))
    (h2 : ∀ e, s.entry? h = some e → e.phase = .live → P (s.becomeRetiring h e)) : P (s.retire h) := by
  cases he : s.entry? h with
  | none => rwa [retire_of_none he]
  | some e =>
    cases hp : e.phase with
    | free => exact absurd hp (phase_ne_free e)
    | tentative => rwa [retire_of_tentative he hp]
    | retiring => rwa [retire_of_retiring he hp]
    | live => rw [retire_of_live he hp]; split <;> [exact h2 e he hp; exact h1]

theorem retire_frees (s : State) (h : Nat) : Frees s (s.retire h) :=
  retire_cases (.refl s) (freeEntry_frees s h) (fun e _ _ => becomeRetiring_frees s h e)

theorem mayBeHeld_of_live {e : Entry} {d : Declared} {m : MirrorPart} {l : LivePart} (hb : e.body = .live d m l) :
    e.mayBeHeld = true ↔ ¬(m.peer = .absent ∧ m.inflight = none) := by
  simp only [Entry.mayBeHeld, Entry.mirror?, hb]
  cases m.peer <;> cases m.inflight <;> simp

theorem isMarked_of_not_live {h : Nat} {e : Entry} (he : s.entry? h = some e) (hp : e.phase ≠ .live) :
    s.isMarked h = false := by
  rw [isMarked_of_entry he]
  cases hb : e.body <;> simp_all [Entry.marked, Entry.live?, Entry.phase]

/-- R155: of the roles a retire moves only what clearing the entry's mark moves. -/
theorem retire_role (s : State) (h : Nat) : (s.retire h).role = if s.isMarked h then unmarkedRole s.role else s.role := by
  cases he : s.entry? h with
  | none => rw [retire_of_none he]; simp [State.isMarked, he]
  | some e =>
    cases hp : e.phase with
    | free => exact absurd hp (phase_ne_free e)
    | tentative => rw [retire_of_tentative he hp, freeEntry_role]
    | retiring => rw [retire_of_retiring he hp, isMarked_of_not_live he (by rw [hp]; decide)]; rfl
    | live =>
      rw [retire_of_live he hp]
      split
      · exact becomeRetiring_role he (by rw [hp]; decide)
      · exact freeEntry_role s h

/-- R7: the phase that a retire gives a LIVE entry. -/
theorem retire_live_phase {h : Nat} {e : Entry} {d : Declared} {m : MirrorPart} {l : LivePart} (hs : s.tableOk)
    (he : s.entry? h = some e) (hb : e.body = .live d m l) :
    (s.retire h).phase h = if m.peer = .absent ∧ m.inflight = none then .free else .retiring := by
  rw [retire_of_live he (phase_of_live hb)]
  by_cases hm : m.peer = .absent ∧ m.inflight = none
  · rw [if_neg (fun k => (mayBeHeld_of_live hb).mp k hm), if_pos hm]
    exact phase_of_none (freeEntry_table hs he).1
  · rw [if_pos ((mayBeHeld_of_live hb).mpr hm), if_neg hm, phase_of_entry (becomeRetiring_self he hb)]
    rfl

theorem phase_leaveBlocks (s : State) (h g : Nat) : (s.leaveBlocks h).phase g = s.phase g := by
  refine phase_of_map ?_
  unfold State.leaveBlocks
  rw [entry?_mapAllBlocks, Option.map_map]
  exact Option.map_congr (fun e _ => phase_mapBlocks e _)

theorem phase_releaseWaiters (s : State) (bs : List Nat) (g : Nat) : (s.releaseWaiters bs).phase g = s.phase g := by
  unfold State.releaseWaiters
  induction bs generalizing s with
  | nil => rfl
  | cons b bs ih =>
    refine (ih _).trans (phase_of_map ?_)
    rw [entry?_modifyEntry]
    split
    · subst_vars
      rw [Option.map_map]
      exact Option.map_congr (fun e _ => phase_mapLive e _)
    · rfl

/-- R7, R8: a retire moves the phase of no other entry. -/
theorem retire_phase_ne {h g : Nat} (hs : s.tableOk) (hg : g ≠ h) : (s.retire h).phase g = s.phase g := by
  refine retire_cases (P := fun v => v.phase g = s.phase g) rfl ?_ (fun e _ _ => ?_)
  · cases he : s.entry? h with
    | none => rw [freeEntry_of_none he]
    | some e =>
      rw [phase_congr ((freeEntry_table hs he).2.1 g hg)]
      unfold unblocked
      split
      · exact phase_releaseWaiters s _ g
      · exact (phase_leaveBlocks _ h g).trans (phase_releaseWaiters s _ g)
  · rw [phase_congr (becomeRetiring_others s h e g hg)]
    split
    · rfl
    · exact phase_leaveBlocks s h g

/-- R7, R8: a retire of a TENTATIVE or LIVE entry leaves every other TENTATIVE or LIVE entry as it was. -/
theorem retire_keeps {h g : Nat} {x : Entry} (hs : s.tableOk) (hg : g ≠ h) (hx : s.entry? g = some x)
    (hp : x.phase ≠ .retiring) : (s.retire h).entry? g = some x := by
  cases he : s.entry? h with
  | none => rwa [retire_of_none he]
  | some e =>
    have hfree : e.phase ≠ .retiring → (s.freeEntry h).entry? g = some x := fun hr =>
      freeEntry_keeps hs he hg hx (by cases hb : e.body <;> simp_all [Entry.blocks, Entry.phase]) (.inr hp)
    cases hph : e.phase with
    | free => exact absurd hph (phase_ne_free e)
    | tentative => rw [retire_of_tentative he hph]; exact hfree (by rw [hph]; decide)
    | retiring => rwa [retire_of_retiring he hph]
    | live =>
      rw [retire_of_live he hph]
      split
      · rw [becomeRetiring_others s h e g hg]
        split
        · exact hx
        · rw [State.leaveBlocks, entry?_mapAllBlocks, hx, Option.map_some, mapBlocks_of_not_retiring hp]
      · exact hfree (by rw [hph]; decide)

end Sys2Proof.SessionTable

/-! Requests served and events ended, and the statements on freeing and retiring: DROP (R64), the RETIRE record (R104), PURGE
(R207) and the sweepers (R24, R25). -/

namespace Sys2Proof.SessionTable

open Sys2Proof Sys2Proof.Machine Sys2Proof.Laws

variable {s t u : State}

/-! ## The tests and frames that end an event -/

theorem finish_of_undone (h1 : s.settleDone = false) (h2 : s.walkDone = false) : s.finish = s := by
  simp [State.finish, h1, h2]

theorem settleDone_of_phase (h : s.role.phase ≠ .settle) : s.settleDone = false := by simp [State.settleDone, h]

theorem walkDone_of_state (h : s.mirror.state ≠ .walking) : s.walkDone = false := by simp [State.walkDone, h]

theorem finish_of_quiet (h : s.quiet) : s.finish = s :=
  finish_of_undone (settleDone_of_phase h.2) (walkDone_of_state h.1)

theorem finish_of_unended (h : s.unended) : s.finish = s := by
  obtain ⟨hw, hc⟩ := h
  refine finish_of_undone ?_ ?_
  · by_cases hp : s.role.phase = .settle
    · simp [State.settleDone, hc hp]
    · exact settleDone_of_phase hp
  · by_cases hm : s.mirror.state = .walking
    · simp [State.walkDone, (hw hm).ne]
    · exact walkDone_of_state hm

theorem assigned_congr (ha : t.role.active = s.role.active) (hh : t.health = s.health) (f : Fw) :
    t.assigned f = s.assigned f := by
  unfold State.assigned State.usable State.fw
  rw [ha, hh]

theorem sendRoleChanges_none {ph : CutPhase} {a b : RoleName} (hp : ph = s.role.phase) (ha : a = s.assigned .a)
    (hb : b = s.assigned .b) : s.sendRoleChanges ph a b = s := by
  simp [State.sendRoleChanges, hp, ha, hb]

/-- R141: an event that moves neither the phase, the active role nor health sends no ROLE frame. -/
theorem asEvent_unmoved {body : State → State} (hp : (body s).role.phase = s.role.phase)
    (ha : (body s).role.active = s.role.active) (hh : (body s).health = s.health) : s.asEvent body = body s :=
  sendRoleChanges_none hp.symm (assigned_congr ha hh .a).symm (assigned_congr ha hh .b).symm

/-! ## Requests served (R193, R195, R196) -/

theorem serve_of_heads {q : Request} {rest : List Request} {code : Byte} (hh : s.heads q rest code) {mine : Byte → Bool}
    (hm : mine code = true) (judge : State → Request → Answer) :
    s.serve mine judge = (judge { s with requests := rest } q).send q := by
  obtain ⟨hq, rfl, hl, hr⟩ := hh
  have hc : s.canServe q.port = true := by simp [State.canServe, hr]
  simp [State.serve, State.headFor, hq, hm, hc]

theorem judgeRead_of_permits {v : State} {q : Request} {n : Nat} (hp : v.permitsRead q.port = true) (hn : n ≤ q.args.length)
    (body : State → List Byte → Answer) : v.judgeRead q n body = body v q.args := by
  simp [State.judgeRead, hp, hn]

theorem judgeWrite_of_permits {v : State} {q : Request} {n : Nat} (hp : v.permitsWrite q.port = true)
    (hn : n ≤ q.args.length) (body : State → List Byte → Answer) : v.judgeWrite q n body = body v q.args := by
  simp [State.judgeWrite, hp, hn]

theorem canHand_of_heads {q : Request} {rest : List Request} {code : Byte} (hh : s.heads q rest code) (p : t.ports = s.ports) :
    t.canHand q.port = true := by
  obtain ⟨-, -, hl, hr⟩ := hh
  simp only [State.canHand, State.port, p] at *
  simp [hl, hr]

/-- R193: the REPLY carries the results of a status that has some, and nothing else. -/
def Answer.shown (a : Answer) : List Byte := if a.status.hasResults then a.results else []

theorem send_of_canHand {a : Answer} {q : Request} (hc : a.state.canHand q.port = true) :
    a.send q = a.state.queued q.port (a.state.replyFrame q a.status (Answer.shown a)) := handTx_of_canHand hc

/-- R195: an answer that changes nothing but the queue of requests is the REPLY alone. -/
theorem send_answered {a : Answer} {q : Request} {rest : List Request} {code : Byte} (hh : s.heads q rest code)
    (ha : a.state = { s with requests := rest }) : a.send q = s.answered q rest a.status (Answer.shown a) := by
  rw [send_of_canHand (canHand_of_heads hh (by rw [ha])), ha]
  rfl

theorem send_sends (a : Answer) (q : Request) : Sends a.state (a.send q) := handTx_sends _ _ _

/-- R193, R195: the REPLY is last in its queue, unless the queue was full. -/
theorem send_repliesLast {a : Answer} {q : Request} (hl : (a.state.port q.port).link = .up) :
    (a.send q).repliesLast q a.status (Answer.shown a) := by
  intro hroom
  rcases handTx_cases a.state q.port (a.state.replyFrame q a.status (Answer.shown a)) with ⟨hc, -⟩ | ⟨hc, hd⟩
  · rw [send_of_canHand hc]
    simp only [State.queued, port_setPort, if_true, List.getLast?_append, List.getLast?_singleton]
    rfl
  · have hs : a.send q = a.state.inc .txDrop := hd
    rw [hs] at hroom
    have hroom : (a.state.port q.port).tx.length < Config.txDepth := hroom
    simp [State.canHand, hl, hroom] at hc

/-- Two bytes of arguments as the number they spell. -/
theorem word16At_pair (b0 b1 : Byte) (more : List Byte) :
    (word16At (b0 :: b1 :: more) 0).toNat = b0.toNat * 256 + b1.toNat := by
  have h : word16At (b0 :: b1 :: more) 0 = b0 ++ b1 := rfl
  rw [h, BitVec.toNat_append, ← Nat.shiftLeft_add_eq_or_of_lt b1.isLt, Nat.shiftLeft_eq]

/-! ## DROP -/

theorem drop_of_target {r : DeclRecord} {h : Nat} (ht : s.holderIn r.insideKey .live = some h ∨
    (s.holderIn r.insideKey .live = none ∧ s.lookup r.outsideKey = some h)) : s.drop r = (s.retire h).inc .declAccepted := by
  have : s.dropTarget? r = some h := by
    rcases ht with ht | ⟨h1, h2⟩ <;> simp [State.dropTarget?, *]
  simp [State.drop, this]

/-- Settles O26: a DROP is a retire of the entry it names, and a retire frees or queues by what the target may hold. -/
theorem dropRetiresOrFrees : Obligations.DropRetiresOrFrees := by
  intro s r hs
  refine ⟨fun h e ht he => ?_, fun h1 h2 => by simp [State.drop, State.dropTarget?, h1, h2]⟩
  rw [drop_of_target ht]
  refine ⟨?_, fun d m l hb hp => ?_, fun hb => ?_⟩
  · rw [count_inc, if_pos rfl, (retire_frees s h).counts _ (by decide) (by decide) (by decide)]
  · have hheld : e.mayBeHeld = true := (mayBeHeld_of_live hb).mpr (fun k => hp.elim (· k.1) (· k.2))
    have hself := becomeRetiring_self he hb
    rw [retire_of_live he (phase_of_live hb), if_pos hheld]
    have hlane : ((s.becomeRetiring h e).inc .declAccepted).laneOf h = some (retireLane s m l) := by
      rw [State.laneOf, entry?_inc, hself]; rfl
    refine ⟨?_, ?_, fun hne => ?_, fun hnone => ?_⟩
    · rw [phase_congr (entry?_inc _ _ h), phase_of_entry hself]; rfl
    · rw [State.queuedOf, entry?_inc, hself]; rfl
    · obtain ⟨ln, hln⟩ := Option.ne_none_iff_exists'.mp hne
      rw [hlane, retireLane, hln]; rfl
    · rw [hlane, retireLane, hnone]; rfl
  · have hf : s.retire h = s.freeEntry h := by
      rcases hb with hb | ⟨d, m, l, hb, hm⟩
      · exact retire_of_tentative he (phase_eq_tentative.mpr hb)
      · rw [retire_of_live he (phase_of_live hb), if_neg (fun k => (mayBeHeld_of_live hb).mp k hm)]
    rw [hf]
    obtain ⟨h1, -, h2, h3, h4, -⟩ := freeEntry_table hs he
    exact ⟨h1, h4, h2, h3⟩

/-! ## The RETIRE record -/

/-- R104: a RETIRE record frees its entry and is counted by its status. -/
theorem applyStatus_retire {serial : Word16} {r : BatchRecord} {st : SyncStatus} {e : Entry} {m : MirrorPart}
    (hs : s.tableOk) (hr : r.kind = .retire) (he : s.entry? r.handle = some e) (hm : e.mirror? = some m)
    (hi : m.inflight ≠ none) : s.applyStatus serial r st = ((s.clearInflight r.handle).freeEntry r.handle).inc
      (if st = .accept then .recordsAccepted else .recordsRefused) := by
  obtain ⟨i, hi⟩ := Option.ne_none_iff_exists'.mp hi
  have hs1 := (clearInflight_held s r.handle).table hs
  have he1 : (s.clearInflight r.handle).entry? r.handle = some (e.mapMirror (fun m => { m with inflight := none })) := by
    rw [State.clearInflight, modifyEntry_self, he]; rfl
  have hgone : ∀ c, (((s.clearInflight r.handle).freeEntry r.handle).inc c).entry? r.handle = none :=
    fun c => (freeEntry_table hs1 he1).1
  simp only [State.applyStatus, he, Option.bind_some, hm, hi]
  cases st <;> simp [State.settleRecord, hr, State.offerMark, hgone]

/-- Settles O32: the record's entry is freed, so its waiters lose the one wait and nothing else of the table moves. -/
theorem retireRecordFreesItsEntry : Obligations.RetireRecordFreesItsEntry := by
  intro s serial r st e d m bs hs hr he hb hi
  have hm : e.mirror? = some m := by simp [Entry.mirror?, hb]
  have k1 := clearInflight_lanes s r.handle
  have hs1 := (clearInflight_held s r.handle).table hs
  have he1 : (s.clearInflight r.handle).entry? r.handle =
      some { e with body := .retiring d { m with inflight := none } bs } := by
    rw [State.clearInflight, modifyEntry_self, he, Option.map_some]
    simp [Entry.mapMirror, hb]
  have ho1 := modifyEntry_others s r.handle (·.mapMirror (fun m => { m with inflight := none }))
  obtain ⟨hgone, hothers, hin, hout, hocc, -⟩ := freeEntry_table hs1 he1
  obtain ⟨hurg, hnor⟩ := freeEntry_queues he1
  have hrel : ∀ g, g ≠ r.handle → ((s.clearInflight r.handle).freeEntry r.handle).entry? g =
      ((s.clearInflight r.handle).releaseWaiters bs).entry? g := fun g hg => hothers g hg
  have hrole : ((s.clearInflight r.handle).freeEntry r.handle).role = s.role := by
    have hum : (s.clearInflight r.handle).isMarked r.handle = false := isMarked_of_not_live he1 (by simp [Entry.phase])
    rw [freeEntry_role, hum]
    exact k1.role
  have hwaiter : ∀ g x d' m' l', bs.Nodup → g ∈ bs → s.entry? g = some x → x.body = .live d' m' l' →
      ((s.clearInflight r.handle).freeEntry r.handle).entry? g =
        some (x.withLive d' m' { l' with waits := l'.waits - 1 }) := fun g x d' m' l' hn hg hx hbx => by
    have hne : g ≠ r.handle := by
      rintro rfl
      rw [he, Option.some.injEq] at hx
      subst hx
      rw [hb] at hbx; cases hbx
    have hx1 : (s.clearInflight r.handle).entry? g = some x := (ho1 g hne).trans hx
    rw [hrel g hne, releaseWaiters_on hn hg, hx1, eq_withLive hbx]
    rfl
  have heq := applyStatus_retire (serial := serial) (st := st) hs hr he hm hi
  intro t
  rw [show t = _ from heq]
  refine ⟨hgone, hocc.trans (by rw [k1.occupancy]), ?_, ?_, hin, hout, ?_, fun g x hg hx hnot => ?_, fun g x d' m' l' hn hg hx hbx =>
    ⟨hwaiter g x d' m' l' hn hg hx hbx, fun hw hq hinf hph => ?_⟩⟩
  · exact fun hmem => by simp [hurg] at hmem
  · exact fun hmem => by simp [hnor] at hmem
  · rw [count_inc, if_pos rfl]
    have hk := (k1.frees).trans (freeEntry_frees _ r.handle)
    cases st <;> exact congrArg (fun n => min (n + 1) 4294967295) (hk.counts _ (by decide) (by decide) (by decide))
  · have hx1 : (s.clearInflight r.handle).entry? g = some x := (ho1 g hg).trans hx
    refine (hrel g hg).trans ?_
    rcases hnot with hnot | hnot
    · rw [releaseWaiters_off hnot, hx1]
    · exact releaseWaiters_not_live bs hx1 hnot
  · have hq := Option.isSome_iff_ne_none.mpr hq
    simp only [State.eligible, entry?_inc, hwaiter g x d' m' l' hn hg hx hbx, inc_role, hrole]
    simp [Entry.withLive, Entry.mirror?, Entry.waits, Entry.live?, hw, hq, hinf, hph]

/-! ## PURGE -/

theorem unblocked_of_tentative {h : Nat} {e : Entry} (hb : e.body = .tentative) : unblocked s h e = s := by
  simp [unblocked, Entry.waits, Entry.live?, Entry.blocks, hb]

/-- Freeing a TENTATIVE entry leaves every other entry as it was. -/
theorem freeTentative_others {h : Nat} {e : Entry} (hs : s.tableOk) (he : s.entry? h = some e) (hb : e.body = .tentative) :
    s.othersKept (s.freeEntry h) h := fun g hg => by
  rw [(freeEntry_table hs he).2.1 g hg, unblocked_of_tentative hb]

/-- R207: a PURGE in whose event no test of R116 or R160 is met is a retire. -/
theorem purgeEntry_of_quiet {h : Nat} (hq : s.quiet) (hp : (s.retire h).role.phase = s.role.phase) :
    s.purgeEntry h = s.retire h := by
  have k := retire_works s h
  have hf : (s.retire h).finish = s.retire h := finish_of_quiet ⟨by rw [k.mirrorState]; exact hq.1, by rw [hp]; exact hq.2⟩
  have he : s.purgeEntry h = (s.retire h).finish :=
    asEvent_unmoved (by rw [hf, hp]) (by rw [hf, k.active]) (by rw [hf, k.health])
  rw [he, hf]

theorem exec_purge {q : Request} {rest : List Request} {b0 b1 : Byte} {more : List Byte} (hh : s.heads q rest 18)
    (hp : s.permitsWrite q.port = true) (ha : q.args = b0 :: b1 :: more) :
    exec .purge s = .next ((State.purgeOf { s with requests := rest } q.args).send q) := by
  have hp : State.permitsWrite { s with requests := rest } q.port = true := hp
  refine congrArg Host.Outcome.next ((serve_of_heads hh rfl _).trans ?_)
  rw [judgeWrite_of_permits hp (by rw [ha]; simp)]

theorem purgeOf_of_handle {v : State} {b0 b1 : Byte} {more : List Byte} (hh : b0.toNat * 256 + b1.toNat < 16384) :
    v.purgeOf (b0 :: b1 :: more) =
      { status := .ok, results := be1 ((v.purgeEntry (b0.toNat * 256 + b1.toNat)).phase (b0.toNat * 256 + b1.toNat)).code
        state := v.purgeEntry (b0.toNat * 256 + b1.toNat) } := by
  unfold State.purgeOf
  rw [word16At_pair, if_pos hh]

theorem unmarkedRole_phase {r : Role} (h : r.phase = .transfer → r.marked ≠ 1 ∧ r.marked ≠ 0) :
    (unmarkedRole r).phase = r.phase := by
  unfold unmarkedRole
  split
  · rename_i hc
    obtain ⟨h1, h0⟩ := h hc.1
    omega
  · rfl

theorem unmarkedRole_marked (r : Role) : (unmarkedRole r).marked = r.marked - 1 := by
  unfold unmarkedRole
  split <;> rfl

/-- Settles O58: PURGE is a retire as one event; of the entry's phases only a marked LIVE one moves the roles. -/
theorem purgeRetiresAnEntry : Obligations.PurgeRetiresAnEntry := by
  intro s q rest b0 b1 more hh hp ha h
  rw [exec_purge hh hp ha, ha]
  let v : State := { s with requests := rest }
  have hbad : ¬ h < 16384 → (v.purgeOf (b0 :: b1 :: more)).send q = s.answered q rest .badArg [] := fun hlt => by
    have : v.purgeOf (b0 :: b1 :: more) = v.refuse .badArg := by
      unfold State.purgeOf
      rw [word16At_pair, if_neg hlt]
    rw [this]
    exact send_answered hh rfl
  have hok : h < 16384 → v.purgeOf (b0 :: b1 :: more) =
      { status := .ok, results := be1 ((v.purgeEntry h).phase h).code, state := v.purgeEntry h } := purgeOf_of_handle
  refine ⟨fun hge => congrArg _ (hbad (by omega)), fun hlt => ?_, fun hs hq => ?_⟩
  · refine ⟨_, rfl, ?_, ?_⟩
    · rw [hok hlt, (send_sends _ q).requests]
      exact (purgeEntry_still v h).requests
    · rw [hok hlt]
      have hphase : ∀ a : Answer, (a.send q).phase h = a.state.phase h := fun a =>
        phase_congr (entry?_of_table (by rw [(send_sends a q).table]) h)
      rw [hphase]
      refine send_repliesLast (a := { status := .ok, results := _, state := v.purgeEntry h }) ?_
      exact ((purgeEntry_still v h).sends q.port).1.trans hh.2.2.1
  · have hs : v.tableOk := hs
    have hq : v.quiet := hq
    have hretire : h < 16384 → (v.retire h).role.phase = v.role.phase → v.purgeOf (b0 :: b1 :: more) =
        { status := .ok, results := be1 ((v.retire h).phase h).code, state := v.retire h } := fun hlt hph => by
      rw [hok hlt, purgeEntry_of_quiet hq hph]
    refine ⟨fun hlt hph => ?_, fun hlt hph => ?_, fun hlt hph => ?_, fun e d m l hlt he hb hlast => ?_⟩
    · have he : v.entry? h = none := by
        cases he : v.entry? h with
        | none => rfl
        | some e => exact absurd ((phase_of_entry he).symm.trans hph) (phase_ne_free e)
      have hr := retire_of_none he
      rw [hretire hlt (by rw [hr]), hr, show v.phase h = .free from hph]
      exact congrArg _ (send_answered hh rfl)
    · obtain ⟨e, he, hpe⟩ := entry_of_phase (s := v) hph (by decide)
      have hr := retire_of_retiring he hpe
      rw [hretire hlt (by rw [hr]), hr, show v.phase h = .retiring from hph]
      exact congrArg _ (send_answered hh rfl)
    · obtain ⟨e, he, hpe⟩ := entry_of_phase (s := v) hph (by decide)
      have hr := retire_of_tentative he hpe
      have hrole : (v.retire h).role = v.role := by
        rw [retire_role, isMarked_of_not_live he (by rw [hpe]; decide)]; rfl
      obtain ⟨h1, -, -, -, h4, -⟩ := freeEntry_table hs he
      rw [hretire hlt (by rw [hrole]), hr]
      have k := send_sends { status := .ok, results := be1 ((v.freeEntry h).phase h).code, state := v.freeEntry h } q
      refine ⟨_, rfl, ?_, ?_, ?_, ?_⟩
      · exact (entry?_of_table (by rw [k.table]) h).trans h1
      · exact k.requests.trans (freeEntry_works v h).requests
      · show v.othersKept _ h
        exact othersKept_trans (freeTentative_others hs he (phase_eq_tentative.mp hpe)) (othersKept_of_sends h k)
      · rw [k.table]; exact h4
    · have he : v.entry? h = some e := he
      have hmark : v.isMarked h = l.marked := by
        rw [isMarked_of_entry he]; simp [Entry.marked, Entry.live?, hb]
      have hrole : (v.retire h).role = if l.marked then unmarkedRole v.role else v.role := by rw [retire_role, hmark]
      have hph : (v.retire h).role.phase = v.role.phase := by
        rw [hrole]
        split
        · rename_i hm; exact unmarkedRole_phase (hlast hm)
        · rfl
      rw [hretire hlt hph]
      have k := send_sends { status := .ok, results := be1 ((v.retire h).phase h).code, state := v.retire h } q
      refine ⟨_, rfl, k.requests.trans (retire_works v h).requests, ?_, ?_⟩
      · exact (phase_congr (entry?_of_table (by rw [k.table]) h)).trans (retire_live_phase hs he hb)
      · rw [k.role]
        simp only [hrole]
        split
        · exact unmarkedRole_marked _
        · rfl

end Sys2Proof.SessionTable

/-! The tentative and class sweepers (R22 to R25, R27): what a fold over distinct handles does to the entry at one of them. -/

namespace Sys2Proof.SessionTable

open Sys2Proof Sys2Proof.Machine Sys2Proof.Laws

variable {s t u : State}

/-! ## Folds over distinct handles -/

/-- A fold over distinct handles reaches `g` once: what every other step keeps of it, the fold keeps before and after. -/
theorem foldl_at {R : State → State → Prop} (hrefl : ∀ v, R v v) (htrans : ∀ {v w x}, R v w → R w x → R v x)
    {step : State → Nat → State} {g : Nat} (hstep : ∀ v h, h ≠ g → R v (step v h)) {hs : List Nat} (hn : hs.Nodup) (s : State) :
    (g ∉ hs → R s (hs.foldl step s)) ∧
      (g ∈ hs → ∃ v, R s v ∧ R (step v g) (hs.foldl step s)) := by
  induction hs generalizing s with
  | nil => exact ⟨fun _ => hrefl s, fun hm => absurd hm List.not_mem_nil⟩
  | cons h hs ih =>
    obtain ⟨hh, hn⟩ := List.nodup_cons.mp hn
    obtain ⟨ihoff, ihon⟩ := ih hn (step s h)
    refine ⟨fun hg => ?_, fun hg => ?_⟩
    · obtain ⟨h1, h2⟩ := List.ne_and_not_mem_of_not_mem_cons hg
      exact htrans (hstep s h (Ne.symm h1)) (ihoff h2)
    · by_cases hgh : g = h
      · subst hgh
        exact ⟨s, hrefl s, ihoff hh⟩
      · obtain ⟨v, h1, h2⟩ := ihon ((List.mem_cons.mp hg).resolve_left hgh)
        exact ⟨v, htrans (hstep s h (Ne.symm hgh)) h1, h2⟩

/-- From one state to the next the table stays canonical and the entry at `g` stays. -/
def KeepsAt (g : Nat) (v w : State) : Prop := v.tableOk → w.tableOk ∧ w.entry? g = v.entry? g

/-- From one state to the next the table stays canonical, the phase of the entry at `g` stays, and so does the whole entry when it
is TENTATIVE or LIVE. -/
def KeepsOpen (g : Nat) (v w : State) : Prop :=
  v.tableOk → w.tableOk ∧ w.phase g = v.phase g ∧ ∀ x, v.entry? g = some x → x.phase ≠ .retiring → w.entry? g = some x

theorem keepsAt_refl (g : Nat) (v : State) : KeepsAt g v v := fun hv => ⟨hv, rfl⟩

theorem keepsAt_trans {g : Nat} (h : KeepsAt g s t) (k : KeepsAt g t u) : KeepsAt g s u := fun hs =>
  ⟨(k (h hs).1).1, (k (h hs).1).2.trans (h hs).2⟩

theorem keepsOpen_refl (g : Nat) (v : State) : KeepsOpen g v v := fun hv => ⟨hv, rfl, fun _ hx _ => hx⟩

theorem keepsOpen_trans {g : Nat} (h : KeepsOpen g s t) (k : KeepsOpen g t u) : KeepsOpen g s u := fun hs => by
  obtain ⟨ht, hp, hx⟩ := h hs
  obtain ⟨hu, kp, kx⟩ := k ht
  exact ⟨hu, kp.trans hp, fun x h1 h2 => kx x (hx x h1 h2) h2⟩

theorem keepsOpen_of_others {g h : Nat} (hg : h ≠ g) (ht : s.tableOk → t.tableOk) (ho : s.othersKept t h) :
    KeepsOpen g s t := fun hs => by
  have he := ho g (Ne.symm hg)
  exact ⟨ht hs, phase_congr he, fun x hx _ => he.trans hx⟩

/-! ## The tentative sweeper -/

/-- R23, R25: what the tentative sweeper makes of one entry. -/
def agedTentative (e : Entry) : Option Entry :=
  if e.body = .tentative then (if e.idleTag < 2 then some { e with idleTag := e.idleTag + 1 } else none) else some e

/-- R25: the sweeper frees the entry at the handle. -/
def tentativeDue (s : State) (h : Nat) : Bool :=
  match s.entry? h with
  | some e => e.phase == .tentative && decide (2 ≤ e.idleTag)
  | none => false

theorem ageTentative_due {h : Nat} {e : Entry} (he : s.entry? h = some e) (hb : e.body = .tentative) (hi : 2 ≤ e.idleTag) :
    s.ageTentative h = (s.freeEntry h).inc .tentativeExpired ∧ tentativeDue s h = true := by
  have hp : e.phase = .tentative := phase_eq_tentative.mpr hb
  simp [State.ageTentative, tentativeDue, he, hp, Nat.not_lt.mpr hi, hi]

theorem ageTentative_young {h : Nat} {e : Entry} (he : s.entry? h = some e) (hb : e.body = .tentative) (hi : e.idleTag < 2) :
    s.ageTentative h = s.raiseTag h ∧ tentativeDue s h = false := by
  have hp : e.phase = .tentative := phase_eq_tentative.mpr hb
  simp [State.ageTentative, tentativeDue, he, hp, hi]

theorem ageTentative_other {h : Nat} {e : Entry} (he : s.entry? h = some e) (hb : e.body ≠ .tentative) :
    s.ageTentative h = s ∧ tentativeDue s h = false := by
  have hp : e.phase ≠ .tentative := fun k => hb (phase_eq_tentative.mp k)
  simp [State.ageTentative, tentativeDue, he, hp]

theorem ageTentative_none {h : Nat} (he : s.entry? h = none) : s.ageTentative h = s ∧ tentativeDue s h = false := by
  simp [State.ageTentative, tentativeDue, he]

/-- R25: the sweeper's step at one handle: its own entry, the others, and the count of entries expired. -/
theorem ageTentative_step (hs : s.tableOk) (h : Nat) :
    (s.ageTentative h).entry? h = (s.entry? h).bind agedTentative ∧ s.othersKept (s.ageTentative h) h ∧
      (s.ageTentative h).count .tentativeExpired = if tentativeDue s h then
        min (s.count .tentativeExpired + 1) Config.counterMax else s.count .tentativeExpired := by
  cases he : s.entry? h with
  | none =>
    obtain ⟨h1, h2⟩ := ageTentative_none he
    rw [h1, h2]
    exact ⟨he, othersKept_refl s h, rfl⟩
  | some e =>
    by_cases hb : e.body = .tentative
    · by_cases hi : e.idleTag < 2
      · obtain ⟨h1, h2⟩ := ageTentative_young he hb hi
        rw [h1, h2]
        refine ⟨?_, modifyEntry_others s h _, (modifyEntry_lanes s h _).count _⟩
        rw [State.raiseTag, modifyEntry_self, he]
        simp [agedTentative, hb, hi]
      · obtain ⟨h1, h2⟩ := ageTentative_due he hb (by omega)
        rw [h1, h2]
        refine ⟨?_, freeTentative_others hs he hb, ?_⟩
        · rw [entry?_inc, (freeEntry_table hs he).1]
          simp [agedTentative, hb, hi]
        · rw [count_inc, if_pos rfl, if_pos rfl, (freeEntry_frees s h).counts _ (by decide) (by decide) (by decide)]
    · obtain ⟨h1, h2⟩ := ageTentative_other he hb
      rw [h1, h2]
      exact ⟨by simp [he, agedTentative, hb], othersKept_refl s h, rfl⟩

theorem ageTentative_keepsAt {g h : Nat} (hg : h ≠ g) (v : State) : KeepsAt g v (v.ageTentative h) := fun hv =>
  ⟨(ageTentative_still v h).table hv, (ageTentative_step hv h).2.1 g (Ne.symm hg)⟩

theorem ageTentative_works (s : State) (h : Nat) : Works s (s.ageTentative h) := by
  unfold State.ageTentative
  split
  · exact .refl s
  · exact .ite (.ite (modifyEntry_lanes s h _).works ((freeEntry_works s h).trans (inc_tends _ _).works)) (.refl s)

/-- R25: the count of entries expired rises by the number of handles at which one is due. -/
theorem foldl_ageTentative_count {hs : List Nat} (hn : hs.Nodup) (hok : s.tableOk) :
    (hs.foldl State.ageTentative s).count .tentativeExpired =
      (if (hs.filter (tentativeDue s)).length = 0 then s.count .tentativeExpired
        else min (s.count .tentativeExpired + (hs.filter (tentativeDue s)).length) Config.counterMax) := by
  induction hs generalizing s with
  | nil => rfl
  | cons h hs ih =>
    obtain ⟨hh, hn⟩ := List.nodup_cons.mp hn
    obtain ⟨-, hoth, hcount⟩ := ageTentative_step hok h
    have hrest : hs.filter (tentativeDue (s.ageTentative h)) = hs.filter (tentativeDue s) :=
      List.filter_congr (fun g hg => by
        simp only [tentativeDue, hoth g (fun e => hh (e ▸ hg))])
    rw [List.foldl_cons, ih hn ((ageTentative_still s h).table hok), hrest, hcount, List.filter_cons,
      apply_ite List.length, List.length_cons]
    generalize (hs.filter (tentativeDue s)).length = n, Config.counterMax = M, s.count .tentativeExpired = k
    cases tentativeDue s h with
    | false => simp
    | true =>
      simp only [if_true, Nat.add_one_ne_zero, if_false]
      split <;> omega

theorem dueHandles_length (hs : s.tableOk) : (s.handles.filter (tentativeDue s)).length =
    (s.table.entries.filter (fun x => x.2.phase == .tentative && decide (2 ≤ x.2.idleTag))).length := by
  rw [State.handles, List.filter_map, List.length_map]
  refine congrArg List.length (List.filter_congr (fun x hx => ?_))
  simp only [Function.comp_apply, tentativeDue, entry?_of_mem hs hx]

/-! ## The class sweepers -/

theorem ageLive_works (c : Fin 4) (s : State) (h : Nat) : Works s (State.ageLive c s h) := by
  unfold State.ageLive
  split
  · exact .refl s
  · exact .ite (.ite (modifyEntry_lanes s h _).works ((retire_works s h).trans (inc_tends _ _).works)) (.refl s)

theorem ageLive_keepsOpen (c : Fin 4) {g h : Nat} (hg : h ≠ g) (v : State) : KeepsOpen g v (State.ageLive c v h) := by
  have hok := (ageLive_still c v h).table
  unfold State.ageLive at hok ⊢
  split
  · exact keepsOpen_refl g v
  · rename_i e he
    simp only [he] at hok
    split
    · rename_i hdue
      simp only [hdue, if_true] at hok
      split
      · rename_i hi
        simp only [hi, if_true] at hok
        exact keepsOpen_of_others hg hok (modifyEntry_others v h _)
      · rename_i hi
        simp only [hi, if_false] at hok
        refine fun hv => ⟨hok hv, retire_phase_ne hv (Ne.symm hg), fun x hx hp => ?_⟩
        exact retire_keeps hv (Ne.symm hg) hx hp
    · exact keepsOpen_refl g v

/-- R22: no sweeper examines a marked entry, so the roles stay. -/
theorem ageLive_role (c : Fin 4) (s : State) (h : Nat) : (State.ageLive c s h).role = s.role := by
  unfold State.ageLive
  split
  · rfl
  · rename_i e he
    split
    · rename_i hdue
      have hm : s.isMarked h = false := by
        rw [isMarked_of_entry he]
        simp only [Bool.and_eq_true, Bool.not_eq_true'] at hdue
        exact hdue.1.2
      split
      · exact modifyEntry_role s h _
      · exact (retire_role s h).trans (by rw [hm]; rfl)
    · rfl

theorem foldl_ageLive_role (c : Fin 4) (hs : List Nat) (s : State) : (hs.foldl (State.ageLive c) s).role = s.role := by
  induction hs generalizing s with
  | nil => rfl
  | cons h hs ih => exact (ih _).trans (ageLive_role c s h)

/-- R24: an entry that the sweeper of the class passes over. -/
theorem ageLive_passed {c : Fin 4} {h : Nat} {e : Entry} {d : Declared} {m : MirrorPart} {l : LivePart}
    (he : s.entry? h = some e) (hb : e.body = .live d m l) (hn : e.agingClass ≠ c ∨ l.marked = true ∨ l.chain ≠ []) :
    State.ageLive c s h = s := by
  rcases hn with hn | hn | hn <;> simp [State.ageLive, he, Entry.marked, Entry.chain, Entry.live?, hb, hn]

theorem ageLive_not_live {c : Fin 4} {h : Nat} {e : Entry} (he : s.entry? h = some e) (hp : e.phase ≠ .live) :
    State.ageLive c s h = s := by simp [State.ageLive, he, Entry.isLive, hp]

theorem ageLive_examined {c : Fin 4} {h : Nat} {e : Entry} {d : Declared} {m : MirrorPart} {l : LivePart}
    (he : s.entry? h = some e) (hb : e.body = .live d m l) (hc : e.agingClass = c) (hm : l.marked = false)
    (hl : l.chain = []) : State.ageLive c s h = if e.idleTag < 2 then s.raiseTag h else (s.retire h).inc .aged := by
  simp [State.ageLive, he, Entry.isLive, phase_of_live hb, Entry.marked, Entry.chain, Entry.live?, hb, hc, hm, hl]

/-- R24: an expiry of a class sweeper, at which no test that ends its event is met, is the sweep alone. -/
theorem classSweep_event {c : Fin 4} (hun : s.unended) :
    exec (.classSweepExpiry c) s = .next (s.classSweep c) := by
  have k : Works { s with sweepers := _ } (s.classSweep c) := Works.foldl (ageLive_works c) _ _
  have hr : (s.classSweep c).role = s.role := foldl_ageLive_role c _ _
  have hf : (s.classSweep c).finish = s.classSweep c := by
    refine finish_of_unended ⟨fun h => ?_, fun h => ?_⟩
    · rw [k.cursor]; exact hun.1 (k.mirrorState.symm.trans h)
    · rw [k.batches]; exact hun.2 (by rw [← hr]; exact h)
  have he : s.asEvent (fun v => (v.classSweep c).finish) = (s.classSweep c).finish :=
    asEvent_unmoved (by rw [hf, hr]) (by rw [hf, hr]) (by rw [hf]; exact k.health)
  exact congrArg Host.Outcome.next (he.trans hf)

/-- Settles O46: each sweeper's fold reaches an entry once, and no other step of it moves an entry that is TENTATIVE or LIVE. -/
theorem sweepsAgeRetireAndFree : Obligations.SweepsAgeRetireAndFree := by
  refine ⟨fun s hs => ?_, fun s c hs hun => ?_⟩
  · let v : State := { s with sweepers := { s.sweepers with tentative := s.param .tentativeSweep } }
    have hv : v.tableOk := hs
    have hat : ∀ g, (g ∉ s.handles → KeepsAt g v (v.handles.foldl State.ageTentative v)) ∧ (g ∈ s.handles → ∃ w, KeepsAt g v w ∧
        KeepsAt g (w.ageTentative g) (v.handles.foldl State.ageTentative v)) := fun g =>
      foldl_at (R := KeepsAt g) (keepsAt_refl g) keepsAt_trans (fun w h hg => ageTentative_keepsAt hg w) (handles_nodup hv) v
    refine ⟨_, rfl, (Works.foldl ageTentative_works _ v).sweepers, fun h e he => ?_, fun h he => ?_, ?_⟩
    · obtain ⟨w, h1, h2⟩ := (hat h).2 (mem_handles he)
      obtain ⟨hw, hwe⟩ := h1 hv
      refine (h2 ((ageTentative_still w h).table hw)).2.trans ?_
      rw [(ageTentative_step hw h).1, hwe, show v.entry? h = some e from he]
      rfl
    · have hn : h ∉ s.handles := fun hm => by
        obtain ⟨x, hx, rfl⟩ := List.mem_map.mp hm
        rw [entry?_of_mem hs hx] at he
        cases he
      exact (((hat h).1 hn) hv).2.trans he
    · exact (foldl_ageTentative_count (handles_nodup hv) hv).trans (by rw [dueHandles_length hv]; rfl)
  · let v : State := { s with sweepers := { s.sweepers with classes := s.sweepers.classes.set c (s.param (.agingSweep c)) } }
    have hv : v.tableOk := hs
    have hat : ∀ g e, s.entry? g = some e → ∃ w, KeepsOpen g v w ∧
        KeepsOpen g (State.ageLive c w g) (s.classSweep c) := fun g e he =>
      (foldl_at (R := KeepsOpen g) (keepsOpen_refl g) keepsOpen_trans (fun w h hg => ageLive_keepsOpen c hg w)
        (handles_nodup hv) v).2 (mem_handles (s := v) he)
    refine ⟨_, classSweep_event hun, (Works.foldl (ageLive_works c) _ v).sweepers, fun h e d m l he hb => ?_, fun h e he hb => ?_⟩
    · obtain ⟨w, h1, h2⟩ := hat h e he
      obtain ⟨hw, -, hx⟩ := h1 hv
      have hlive : e.phase ≠ .retiring := by rw [phase_of_live hb]; decide
      have hwe : w.entry? h = some e := hx e he hlive
      refine ⟨fun hn => ?_, fun hc hm hl => ⟨fun hi => ?_, fun hi => ?_⟩⟩
      · rw [ageLive_passed hwe hb hn] at h2
        exact (h2 hw).2.2 e hwe hlive
      · rw [ageLive_examined hwe hb hc hm hl, if_pos hi] at h2
        refine (h2 ((raiseTag_held w h).table hw)).2.2 _ ?_ hlive
        rw [State.raiseTag, modifyEntry_self, hwe]
        rfl
      · rw [ageLive_examined hwe hb hc hm hl, if_neg (by omega)] at h2
        refine (h2 ((retire_still w h).table hw)).2.1.trans ?_
        exact retire_live_phase hw hwe hb
    · obtain ⟨w, h1, h2⟩ := hat h e he
      obtain ⟨hw, -, hx⟩ := h1 hv
      have hp : e.phase = .tentative := phase_eq_tentative.mpr hb
      have hwe : w.entry? h = some e := hx e he (by rw [hp]; decide)
      rw [ageLive_not_live hwe (by rw [hp]; decide)] at h2
      exact (h2 hw).2.2 e hwe (by rw [hp]; decide)

end Sys2Proof.SessionTable

/-! The requests that report state and TABLE_RESET (R201, R202, R204, R208). -/

namespace Sys2Proof.SessionTable

open Sys2Proof Sys2Proof.Machine Sys2Proof.Laws

variable {s t u : State}

/-! ## Reads and writes of a request at the head of its queue -/

theorem serve_read {q : Request} {rest : List Request} {code : Byte} (hh : s.heads q rest code)
    (hp : s.permitsRead q.port = true) {mine : Byte → Bool} (hm : mine code = true) {n : Nat} (hn : n ≤ q.args.length)
    (body : State → List Byte → Answer) :
    s.serve mine (fun v r => v.judgeRead r n body) = (body { s with requests := rest } q.args).send q := by
  have hp : State.permitsRead { s with requests := rest } q.port = true := hp
  rw [serve_of_heads hh hm, judgeRead_of_permits hp hn]

theorem serve_write {q : Request} {rest : List Request} {code : Byte} (hh : s.heads q rest code)
    (hp : s.permitsWrite q.port = true) {mine : Byte → Bool} (hm : mine code = true) {n : Nat} (hn : n ≤ q.args.length)
    (body : State → List Byte → Answer) :
    s.serve mine (fun v r => v.judgeWrite r n body) = (body { s with requests := rest } q.args).send q := by
  have hp : State.permitsWrite { s with requests := rest } q.port = true := hp
  rw [serve_of_heads hh hm, judgeWrite_of_permits hp hn]

/-- R196: a read whose arguments are too short is refused BAD_ARG. -/
theorem serve_read_short {q : Request} {rest : List Request} {code : Byte} (hh : s.heads q rest code)
    (hp : s.permitsRead q.port = true) {mine : Byte → Bool} (hm : mine code = true) {n : Nat} (hn : q.args.length < n)
    (body : State → List Byte → Answer) :
    s.serve mine (fun v r => v.judgeRead r n body) = s.answered q rest .badArg [] := by
  have hp : State.permitsRead { s with requests := rest } q.port = true := hp
  rw [serve_of_heads hh hm, State.judgeRead, hp, if_neg (by simp), if_pos hn]
  exact send_answered hh rfl

/-! ## GET_STATUS -/

theorem timer_byte (x : Timer) : x.byte = if x = .stopped then be1 0 else be1 1 := by cases x <;> rfl

theorem startup_byte (x : StartupWait) : x.byte = if x = .over then be1 2 else be1 1 := by cases x <;> rfl

theorem dwell_byte (x : Dwell) :
    x.byte = if x = .stopped then be1 0 else if x = .complete then be1 2 else be1 1 := by cases x <;> rfl

theorem standby_code (s : State) :
    fwCode s.standby = if s.usable s.role.active.other then Fw.code s.role.active.other else 0 := by
  unfold State.standby
  split <;> rfl

theorem exec_getStatus {q : Request} {rest : List Request} (hh : s.heads q rest 3) (hp : s.permitsRead q.port = true) :
    exec .getStatus s = .next (State.queued (State.clearLevels { s with requests := rest }) q.port
      (s.replyFrame q .ok (State.statusBytes { s with requests := rest }))) := by
  refine congrArg Host.Outcome.next ((serve_read hh hp rfl (Nat.zero_le _) (fun v _ => v.statusOf)).trans ?_)
  exact send_of_canHand (a := State.statusOf { s with requests := rest }) (canHand_of_heads hh rfl)

theorem clearLevels_table (s : State) (n : Fin 3) : s.clearLevels.table.levels.get n =
    (s.table.levels.get n && s.tableReached n) := by fin_cases n <;> rfl

theorem clearLevels_park (s : State) (n : Fin 3) : s.clearLevels.park.levels.get n =
    (s.park.levels.get n && s.parkReached n) := by fin_cases n <;> rfl

/-! ## GET_COUNTERS -/

/-- R215: the counters in the order of their numbers. -/
def countersInOrder : List Counter :=
  [.framesIn .lan, .framesIn .wan, .framesIn .aIn, .framesIn .aOut, .framesIn .bIn, .framesIn .bOut, .framesOut .lan,
   .framesOut .wan, .framesOut .aIn, .framesOut .aOut, .framesOut .bIn, .framesOut .bOut, .rxError, .txDrop, .ccfPortDrop,
   .ccfMalformed, .discard, .standbyEmit, .entriesCreated, .entriesPromoted, .entriesFreed, .tentativeCreated,
   .tentativeExpired, .untrackedSyn, .aged, .anomalies, .declAccepted, .refusedWrongRole, .refusedBadRecord, .refusedKeyClash,
   .refusedTableFull, .refusedBucketFull, .dropMiss, .declUnwalked, .flushedIgnored, .batchesSent, .recordsAccepted,
   .recordsRefused, .batchTimeouts, .strayAck, .walks, .roleMismatch, .cutoversPlanned, .cutoversUnplanned, .cutoverAborts,
   .releasedUnconfirmed, .parked, .released, .parkDrop, .parkDiscarded, .reqOverflow]

theorem countersInOrder_index : countersInOrder.map Counter.index = List.finRange 51 := by decide

/-- R215: each of the fifty-one numbers is a counter's. -/
theorem counter_of_index (i : Fin 51) : ∃ c : Counter, c.index = i := by
  have h : i ∈ countersInOrder.map Counter.index := countersInOrder_index ▸ List.mem_finRange i
  obtain ⟨c, -, hc⟩ := List.mem_map.mp h
  exact ⟨c, hc⟩

theorem counterBytes_eq (hc : ∀ c, s.count c ≤ 4294967295) :
    s.counterBytes = (s.counters.toList.map (beBytes 4)).flatten := by
  unfold State.counterBytes
  refine congrArg List.flatten (List.map_congr_left (fun n hn => ?_))
  obtain ⟨i, hi, rfl⟩ := List.mem_iff_getElem.mp hn
  have hlen : i < 51 := by simpa using hi
  obtain ⟨c, hci⟩ := counter_of_index ⟨i, hlen⟩
  have hle := hc c
  have hcount : s.count c = s.counters.toList[i] := by
    simp only [State.count, hci, Vector.getElem_toList]
    rfl
  rw [hcount] at hle
  simp only [be4, Nat.min_eq_left hle]

theorem flatten_beBytes_length (k : Nat) (ns : List Nat) : ((ns.map (beBytes k)).flatten).length = k * ns.length := by
  induction ns with
  | nil => rfl
  | cons n ns ih => simp [ih, length_beBytes]; ring

/-- Settles O52: both reports written out, the level flags as R201 clears them, and the counters as R204 does. -/
theorem statusAndCountersAreReported : Obligations.StatusAndCountersAreReported := by
  refine ⟨fun s q rest hh hp => ?_, fun s q rest b more hh ha hc => ?_⟩
  · intro r timer firewall bytes
    have hfw : ∀ x : HealthRecord, firewall x = x.bytes := fun x => by
      have hreason : (match x.state with | .down why => be1 why.code | _ => be1 0) = be1 x.state.reasonCode := by
        cases x.state <;> rfl
      refine Eq.trans ?_ (congrArg (fun z => [be1 x.state.code, z, be1 x.misses, be1 x.good, be1 x.fitness,
        be1 x.claimed.code, be2 x.lastSeq.toNat, beMac x.learned].flatten) hreason |>.trans ?_)
      · rfl
      · simp only [HealthRecord.bytes, List.flatten_cons, List.flatten_nil, List.append_nil, List.append_assoc]
    have hbytes : State.statusBytes { s with requests := rest } = bytes := by
      change s.statusBytes = bytes
      simp only [bytes, hfw, timer, State.statusBytes, State.roleBytes, Role.timerBytes, CutRecord.bytes, Mirror.bytes,
        Levels.bytes, timer_byte, startup_byte, dwell_byte, standby_code, List.flatten_cons, List.flatten_nil,
        List.append_nil, List.append_assoc]
      rfl
    refine ⟨_, exec_getStatus hh hp, ?_, rfl, fun n => clearLevels_table s n, fun n => clearLevels_park s n⟩
    rw [hbytes]
    rfl
  · intro bytes
    refine ⟨?_, fun hb hp => ?_, fun hb hp => ?_⟩
    · exact (flatten_beBytes_length 4 _).trans (by simp)
    · have hcl : clearFlag q.args = false := by rw [ha, hb]; rfl
      have hv : State.judgeCounters { s with requests := rest } q =
          { status := .ok, results := s.counterBytes, state := { s with requests := rest } } := by
        have hp : State.permitsRead { s with requests := rest } q.port = true := hp
        rw [State.judgeCounters, hcl, if_neg (by decide), judgeRead_of_permits hp (by rw [ha]; simp), State.countersOf, hcl]
        rfl
      refine congrArg Host.Outcome.next ((serve_of_heads hh rfl _).trans ?_)
      rw [hv, counterBytes_eq hc]
      exact send_answered hh rfl
    · have hcl : clearFlag q.args = true := by rw [ha]; simpa [clearFlag, byteAt] using hb
      have hv : State.judgeCounters { s with requests := rest } q =
          { status := .ok, results := s.counterBytes
            state := { s with requests := rest, counters := Vector.replicate 51 0 } } := by
        have hp : State.permitsWrite { s with requests := rest } q.port = true := hp
        rw [State.judgeCounters, hcl, if_pos rfl, judgeWrite_of_permits hp (by rw [ha]; simp), State.countersOf, hcl]
        rfl
      refine congrArg Host.Outcome.next ((serve_of_heads hh rfl _).trans ?_)
      rw [hv, counterBytes_eq hc]
      exact send_of_canHand (canHand_of_heads hh rfl)

/-! ## GET_ENTRY and FIND_ENTRY -/

/-- R189: what `edgeFields` writes shows the edges, whatever the free values. -/
theorem edgesShown_edgeFields (n : Nat) (es : List (Option Seq32)) : edgesShown es (edgeFields n es).1 := by
  induction es generalizing n with
  | nil => rfl
  | cons e es ih =>
    cases e with
    | none => exact ⟨_, _, rfl, length_beBytes _ _, fun v hv => (nomatch hv), ih (n + 1)⟩
    | some v => exact ⟨_, _, rfl, length_beBytes _ _, fun w hw => by cases hw; rfl, ih n⟩

theorem trackingField_shown (n : Nat) (x : Tracking) : ∃ es, (trackingField n (some x)).1 =
    [1#8] ++ es ++ be1 x.scaleOut ++ be1 x.scaleIn ++ beFlag x.scaleKnown ++ be1 x.anomalies ∧
      edgesShown x.edgeList es :=
  ⟨(edgeFields n x.edgeList).1, by
    have h1 : be1 1 = [1#8] := rfl
    simp only [trackingField, presence, h1, List.append_assoc], edgesShown_edgeFields n _⟩

theorem mirroredField_shown (n : Nat) (x : MirEdges) :
    ∃ es, (mirroredField n (some x)).1 = [1#8] ++ es ∧ edgesShown x.edgeList es :=
  ⟨(edgeFields n x.edgeList).1, rfl, edgesShown_edgeFields n _⟩

/-- The two bytes of a handle spell it. -/
theorem be2_pair (b0 b1 : Byte) : be2 (b0.toNat * 256 + b1.toNat) = [b0, b1] := by
  have h0 := b0.isLt
  have h1 := b1.isLt
  have e0 : (b0.toNat * 256 + b1.toNat) / 256 = b0.toNat := by omega
  have e1 : BitVec.ofNat 8 (b0.toNat * 256 + b1.toNat) = b1 := by
    apply BitVec.eq_of_toNat_eq
    rw [BitVec.toNat_ofNat]
    omega
  unfold be2
  rw [Nat.min_eq_left (by omega)]
  simp only [beBytes, Nat.pow_one, Nat.pow_zero, Nat.div_one, e0, e1, BitVec.ofNat_toNat, BitVec.setWidth_eq]

theorem exec_getEntry {q : Request} {rest : List Request} (hh : s.heads q rest 4) (hp : s.permitsRead q.port = true)
    {b0 b1 : Byte} {more : List Byte} (ha : q.args = b0 :: b1 :: more) (hh' : b0.toNat * 256 + b1.toNat < 16384) :
    exec .getEntry s = .next { s.answered q rest .ok (s.entryResults (b0.toNat * 256 + b1.toNat)).1 with
      freeReads := (s.entryResults (b0.toNat * 256 + b1.toNat)).2 } := by
  refine congrArg Host.Outcome.next ((serve_read hh hp rfl (by rw [ha]; simp) State.getEntryOf).trans ?_)
  rw [ha, State.getEntryOf, word16At_pair, if_pos hh']
  exact send_of_canHand (a := State.entryAnswer { s with requests := rest } [] _) (canHand_of_heads hh rfl)

theorem exec_getEntry_bad {q : Request} {rest : List Request} (hh : s.heads q rest 4) (hp : s.permitsRead q.port = true)
    {b0 b1 : Byte} {more : List Byte} (ha : q.args = b0 :: b1 :: more) (hh' : 16384 ≤ b0.toNat * 256 + b1.toNat) :
    exec .getEntry s = .next (s.answered q rest .badArg []) := by
  refine congrArg Host.Outcome.next ((serve_read hh hp rfl (by rw [ha]; simp) State.getEntryOf).trans ?_)
  rw [ha, State.getEntryOf, word16At_pair, if_neg (Nat.not_lt.mpr hh')]
  exact send_answered hh rfl

theorem exec_findEntry {q : Request} {rest : List Request} (hh : s.heads q rest 5) (hp : s.permitsRead q.port = true)
    (hn : 3 ≤ q.args.length) :
    exec .findEntry s = .next ((State.findEntryOf { s with requests := rest } q.args).send q) :=
  congrArg Host.Outcome.next (serve_read hh hp rfl hn State.findEntryOf)

/-- R202: arguments that hold a key are long enough to be read. -/
theorem findKey_length {args : List Byte} {k : Key} (hk : findKey args = some k) : 3 ≤ args.length := by
  unfold findKey at hk
  split at hk
  · split at hk
    · cases hk
    · split at hk
      · cases hk
      · omega
  · cases hk

theorem findEntry_noKey {q : Request} {rest : List Request} (hh : s.heads q rest 5) (hp : s.permitsRead q.port = true)
    (hk : findKey q.args = none) : exec .findEntry s = .next (s.answered q rest .badArg []) := by
  by_cases hn : 3 ≤ q.args.length
  · rw [exec_findEntry hh hp hn, State.findEntryOf, hk]
    exact congrArg Host.Outcome.next (send_answered hh rfl)
  · exact congrArg Host.Outcome.next (serve_read_short hh hp rfl (by omega) State.findEntryOf)

theorem findHolder_eq (s : State) (k : Key) {h : Nat}
    (hh : s.lookup k = some h ∨ (s.lookup k = none ∧ s.holderIn k .retiring = some h)) : s.findHolder k = some h := by
  unfold State.findHolder
  rcases hh with hh | ⟨h1, h2⟩
  · rw [hh]
  · rw [h1]; exact h2

theorem exec_findEntry_found {q : Request} {rest : List Request} (hh : s.heads q rest 5) (hp : s.permitsRead q.port = true)
    {k : Key} (hk : findKey q.args = some k) {h : Nat} (hf : s.findHolder k = some h) :
    exec .findEntry s = .next { s.answered q rest .ok ([1#8] ++ (s.entryResults h).1) with
      freeReads := (s.entryResults h).2 } := by
  have hf : State.findHolder { s with requests := rest } k = some h := hf
  rw [exec_findEntry hh hp (findKey_length hk), State.findEntryOf, hk]
  simp only [hf]
  exact congrArg Host.Outcome.next
    (send_of_canHand (a := State.entryAnswer { s with requests := rest } (beFlag true) h) (canHand_of_heads hh rfl))

theorem exec_findEntry_none {q : Request} {rest : List Request} (hh : s.heads q rest 5) (hp : s.permitsRead q.port = true)
    {k : Key} (hk : findKey q.args = some k) (hf : s.findHolder k = none) :
    exec .findEntry s = .next (s.answered q rest .ok [0#8]) := by
  have hf : State.findHolder { s with requests := rest } k = none := hf
  rw [exec_findEntry hh hp (findKey_length hk), State.findEntryOf, hk]
  simp only [hf]
  exact congrArg Host.Outcome.next (send_answered hh rfl)

/-- R202: only the table, the Park Buffer and the free values taken bear on what GET_ENTRY reports. -/
theorem entryResults_congr {v : State} (ht : v.table = s.table) (hp : v.park = s.park) (hf : v.freeReads = s.freeReads)
    (h : Nat) : v.entryResults h = s.entryResults h := by
  simp only [State.entryResults, State.entry?, State.chainBytes, ht, hp, hf]

theorem flag_of_walk (e : Entry) : e.walkField = presence (match e.body with
    | .live _ m _ => some (beFlag m.walk)
    | .retiring _ m _ => if m.walk then some [1#8] else none
    | .tentative => none) := by
  unfold Entry.walkField
  cases e.body <;> rfl

theorem blocksField_eq (e : Entry) : e.blocksField = presence (match e.body with
    | .retiring _ _ bs => some (be1 bs.length ++ (bs.map be2).flatten)
    | _ => none) := by
  unfold Entry.blocksField
  cases e.body <;> rfl

theorem inflightField_eq (x : Option Inflight) :
    inflightField x = presence (x.map (fun i => be2 i.serial.toNat ++ be1 i.note.code)) := by cases x <;> rfl

theorem initiator_bytes (i : Initiator) : be1 i.code = if i = .rem then [1#8] else [0#8] := by cases i <;> rfl

/-- Settles O55: the layout field by field, each behind its presence byte, and FIND_ENTRY as GET_ENTRY of its holder. -/
theorem entriesAreReported : Obligations.EntriesAreReported := by
  refine ⟨fun s q rest b0 b1 more hh hp ha => ?_, fun s q rest hh hp => ?_⟩
  · intro h
    refine ⟨fun hlt he => ?_, fun e hlt he => ?_, fun hge => exec_getEntry_bad hh hp ha hge⟩
    · rw [exec_getEntry hh hp ha hlt]
      have hr : s.entryResults (b0.toNat * 256 + b1.toNat) = ([b0, b1, 0#8], s.freeReads) := by
        unfold State.entryResults
        rw [show s.entry? _ = none from he, be2_pair]
        rfl
      rw [hr]
      rfl
    · refine ⟨(trackingField s.freeReads e.tcp).1,
        (mirroredField (trackingField s.freeReads e.tcp).2 (e.mirror?.bind (·.edges))).1,
        (mirroredField (trackingField s.freeReads e.tcp).2 (e.mirror?.bind (·.edges))).2, ?_⟩
      intro field
      have hfield : ∀ x, field x = presence x := fun x => by cases x <;> rfl
      refine ⟨?_, fun ht => by rw [ht]; rfl, fun x hx => by rw [hx]; exact trackingField_shown _ x,
        fun hm => by rw [hm]; rfl, fun x hx => by rw [hx]; exact mirroredField_shown _ x, fun ht hm => by rw [ht, hm]; rfl⟩
      rw [exec_getEntry hh hp ha hlt]
      have hr : s.entryResults (b0.toNat * 256 + b1.toNat) =
          ([b0, b1] ++ be1 e.phase.code ++ e.identityBytes ++ e.declaredBytes ++ (trackingField s.freeReads e.tcp).1 ++
            (mirroredField (trackingField s.freeReads e.tcp).2 (e.mirror?.bind (·.edges))).1 ++ e.mirrorBytes ++
            s.chainBytes h e, (mirroredField (trackingField s.freeReads e.tcp).2 (e.mirror?.bind (·.edges))).2) := by
        unfold State.entryResults
        rw [show s.entry? _ = some e from he, be2_pair]
      rw [hr]
      simp only [hfield, Entry.identityBytes, Entry.declaredBytes, Entry.mirrorBytes, State.chainBytes, flag_of_walk,
        blocksField_eq, inflightField_eq, initiator_bytes, List.flatten_cons, List.flatten_nil, List.append_nil,
        List.append_assoc] <;> rfl
  · refine ⟨findEntry_noKey hh hp, fun k hk => ⟨fun h hf => ?_, fun h1 h2 => ?_⟩⟩
    · refine ⟨_, _, exec_findEntry_found hh hp hk (findHolder_eq s k hf), ?_⟩
      rintro u q' rest' b0 b1 more hu hh' hp' ha' rfl hlt
      rw [exec_getEntry hh' hp' ha' hlt]
      rw [entryResults_congr (s := s) (by rw [hu]) (by rw [hu]) (by rw [hu])]
    · exact exec_findEntry_none hh hp hk (by unfold State.findHolder; rw [h1]; exact h2)

end Sys2Proof.SessionTable

/-! Walks and changes of the mirror target (R99, R112, R117), and TABLE_RESET (R208). -/

namespace Sys2Proof.SessionTable

open Sys2Proof Sys2Proof.Machine Sys2Proof.Laws

variable {s t u : State}

/-! ## Batches sent -/

/-- R99: the Mirror Engine with one batch more outstanding. -/
def withBatch (s : State) (begin : Bool) (recs : List BatchRecord) : Mirror :=
  { s.mirror with
    nextSerial := s.nextSerial + 1
    slots := s.mirror.slots ++ [{ serial := s.nextSerial, age := 0, begin := begin, records := recs }] }

/-- R99: a batch sent is one batch more outstanding, one counted, and a frame handed over. -/
theorem sendBatch_sends (s : State) (b : Bool) (rs : List BatchRecord) (pl : List Byte) :
    Sends (State.inc { s with mirror := withBatch s b rs } .batchesSent) (s.sendBatch b rs pl) := by
  unfold State.sendBatch
  dsimp only
  split
  · exact sendTo_sends _ _ _ _ _ _ _
  · exact rfl

theorem sendBatch_mirror (s : State) (b : Bool) (rs : List BatchRecord) (pl : List Byte) :
    (s.sendBatch b rs pl).mirror = withBatch s b rs := (sendBatch_sends s b rs pl).mirror

theorem sendBatch_events (s : State) (b : Bool) (rs : List BatchRecord) (pl : List Byte) :
    (s.sendBatch b rs pl).events = s.events := by
  unfold State.sendBatch
  dsimp only
  split
  · exact handTx_events _ _ _
  · rfl

theorem sendBatch_count (s : State) (b : Bool) (rs : List BatchRecord) (pl : List Byte) {c : Counter} (hc : c ≠ .txDrop)
    (hb : c ≠ .batchesSent) : (s.sendBatch b rs pl).count c = s.count c := by
  have h0 : ∀ m : Mirror, (State.inc { s with mirror := m } .batchesSent).count c = s.count c := fun m =>
    (count_inc _ _ _).trans (if_neg hb)
  unfold State.sendBatch
  dsimp only
  split
  · exact (handTx_count _ _ _ hc).trans (h0 _)
  · exact h0 _

/-! ## Walks and losses of the target -/

/-- R112, R117: the batches, lanes and walk abandoned, the RETIRING entries not yet freed. -/
def abandoned (s : State) (target : Option Fw) (st : MirrorState) (cursor : Nat) (begin : Bool) : State :=
  { s.mapEntries Entry.forget with mirror := { s.mirror with
      target := target, state := st, urgent := [], normal := [], slots := [], timeouts := 0, cursor := cursor,
      walkPending := 0, walkQueued := 0, beginPending := begin, restartHold := .stopped } }

theorem abandonMirror_eq (s : State) (target : Option Fw) (st : MirrorState) (cursor : Nat) (begin : Bool) :
    s.abandonMirror target st cursor begin = (abandoned s target st cursor begin).freeAll
      ((abandoned s target st cursor begin).handlesIn .retiring) := rfl

theorem abandonMirror_works (s : State) (target : Option Fw) (st : MirrorState) (cursor : Nat) (begin : Bool) :
    Works (abandoned s target st cursor begin) (s.abandonMirror target st cursor begin) := freeAll_works _ _

theorem marked_forget (e : Entry) : e.forget.marked = e.marked := by
  obtain ⟨fam, pr, o, i, c, n, x, b⟩ := e
  cases b <;> rfl

theorem abandoned_isMarked (s : State) (target : Option Fw) (st : MirrorState) (cursor : Nat) (begin : Bool) (h : Nat) :
    (abandoned s target st cursor begin).isMarked h = s.isMarked h := by
  refine isMarked_congr ?_
  refine (congrArg (Option.map Entry.marked) (entry?_mapEntries s Entry.forget h)).trans ?_
  rw [Option.map_map]
  exact Option.map_congr (fun e _ => marked_forget e)

/-- R8: freeing marks nothing. -/
theorem freeEntry_isMarked {h g : Nat} (hs : s.tableOk) (hm : s.isMarked g = false) : (s.freeEntry h).isMarked g = false := by
  cases he : s.entry? h with
  | none => rwa [freeEntry_of_none he]
  | some e =>
    obtain ⟨h1, h2, -⟩ := freeEntry_table hs he
    by_cases hg : g = h
    · subst hg; simp [State.isMarked, h1]
    · rw [isMarked_of_same (h2 g hg), unblocked_isMarked, hm]

theorem freeAll_isMarked {hs : List Nat} (hok : s.tableOk) (hm : ∀ g, s.isMarked g = false) (g : Nat) :
    (s.freeAll hs).isMarked g = false := by
  unfold State.freeAll
  induction hs generalizing s with
  | nil => exact hm g
  | cons h hs ih => exact ih ((freeEntry_still s h).table hok) (fun k => freeEntry_isMarked hok (hm k))

theorem abandonMirror_isMarked (hok : s.tableOk) (hm : ∀ g, s.isMarked g = false) (target : Option Fw) (st : MirrorState)
    (cursor : Nat) (begin : Bool) (g : Nat) : (s.abandonMirror target st cursor begin).isMarked g = false := by
  have hok' : (abandoned s target st cursor begin).tableOk := (mapEntries_held s phase_forget).table hok
  exact freeAll_isMarked hok' (fun k => (abandoned_isMarked s target st cursor begin k).trans (hm k)) g

/-- Where nothing is marked, the abandonment leaves the roles. -/
theorem abandonMirror_role (hok : s.tableOk) (hm : ∀ g, s.isMarked g = false) (target : Option Fw) (st : MirrorState)
    (cursor : Nat) (begin : Bool) : (s.abandonMirror target st cursor begin).role = s.role := by
  have hfree : ∀ (hs : List Nat) (v : State), v.tableOk → (∀ g, v.isMarked g = false) → (v.freeAll hs).role = v.role := by
    intro hs
    unfold State.freeAll
    induction hs with
    | nil => exact fun v _ _ => rfl
    | cons h hs ih =>
      intro v hv hvm
      refine (ih _ ((freeEntry_still v h).table hv) (fun g => freeEntry_isMarked hv (hvm g))).trans ?_
      rw [freeEntry_role, hvm h]
      rfl
  have hok' : (abandoned s target st cursor begin).tableOk := (mapEntries_held s phase_forget).table hok
  exact hfree _ _ hok' (fun g => (abandoned_isMarked s target st cursor begin g).trans (hm g))

/-- R112: after the start of a walk: its target, its state and its one batch. -/
theorem walkStart_mirror (s : State) (f : Fw) :
    (s.walkStart f).mirror.target = some f ∧ (s.walkStart f).mirror.state = .walking ∧ (s.walkStart f).mirror.cursor = 0 ∧
      (s.walkStart f).mirror.slots.length = 1 := by
  have k := abandonMirror_works s (some f) .walking 0 true
  have hm : (s.walkStart f).mirror = withBatch (s.abandonMirror (some f) .walking 0 true) true [] :=
    sendBatch_mirror _ _ _ _
  rw [hm]
  exact ⟨k.target, k.mirrorState, k.cursor, by simp [withBatch, k.batches, abandoned]⟩

theorem targetLoss_mirror (s : State) : s.targetLoss.mirror.target = none ∧ s.targetLoss.mirror.state = .idle :=
  ⟨(abandonMirror_works s none .idle 16384 false).target, (abandonMirror_works s none .idle 16384 false).mirrorState⟩

theorem walkStart_role_of_unmarked (hok : s.tableOk) (hm : ∀ g, s.isMarked g = false) (f : Fw) :
    (s.walkStart f).role = s.role :=
  (sendBatch_sends _ _ _ _).role.trans (abandonMirror_role hok hm _ _ _ _)

theorem walkStart_isMarked (hok : s.tableOk) (hm : ∀ g, s.isMarked g = false) (f : Fw) (g : Nat) :
    (s.walkStart f).isMarked g = false := by
  rw [← abandonMirror_isMarked hok hm (some f) .walking 0 true g]
  exact isMarked_of_same (entry?_of_table (congrArg Table.entries (sendBatch_sends _ true [] []).table) g)

/-! ## TABLE_RESET -/

/-- R208: the state from which TABLE_RESET starts its walk. -/
def emptied (s : State) : State := { s.emptyTable with mirror := s.emptyTable.mirror.emptied }

theorem emptied_count_entriesFreed (s : State) :
    (emptied s).count .entriesFreed = min (s.count .entriesFreed + s.table.entries.length) Config.counterMax :=
  (count_add _ .entriesFreed .parkDiscarded _).trans ((if_neg (by decide)).trans
    ((count_add _ .entriesFreed .entriesFreed _).trans (if_pos rfl)))

theorem emptied_count {c : Counter} (h1 : c ≠ .entriesFreed) (h2 : c ≠ .parkDiscarded) (s : State) :
    (emptied s).count c = s.count c :=
  (count_add _ c .parkDiscarded _).trans ((if_neg h2).trans ((count_add _ c .entriesFreed _).trans (if_neg h1)))

theorem tableReset_of_target {f : Fw} (ht : s.mirror.target = some f) : s.tableReset = (emptied s).walkStart f := by
  have ht' : s.emptyTable.mirror.emptied.target = some f := ht
  simp only [State.tableReset, ht']
  rfl

theorem tableReset_of_none (ht : s.mirror.target = none) : s.tableReset = emptied s := by
  have ht' : s.emptyTable.mirror.emptied.target = none := ht
  simp only [State.tableReset, ht']
  rfl

/-- R208: with no entry left, the walk that starts frees none: one batch is sent and the walk is counted. -/
theorem emptied_walkStart_sends (s : State) (f : Fw) :
    Sends { abandoned (emptied s) (some f) .walking 0 true with
      mirror := withBatch (abandoned (emptied s) (some f) .walking 0 true) true [] } ((emptied s).walkStart f) := by
  have ha : (emptied s).abandonMirror (some f) .walking 0 true = abandoned (emptied s) (some f) .walking 0 true := rfl
  unfold State.walkStart
  rw [ha]
  exact (show Sends _ (State.inc _ .batchesSent) from rfl).trans ((sendBatch_sends _ true [] []).trans rfl)

theorem emptied_walkStart_count (s : State) (f : Fw) {c : Counter} (h1 : c ≠ .txDrop) (h2 : c ≠ .batchesSent) :
    ((emptied s).walkStart f).count c = if c = .walks then min ((emptied s).count .walks + 1) Config.counterMax
      else (emptied s).count c := by
  have ha : (emptied s).abandonMirror (some f) .walking 0 true = abandoned (emptied s) (some f) .walking 0 true := rfl
  unfold State.walkStart
  rw [count_inc, ha, sendBatch_count _ _ _ _ (by decide) (by decide), sendBatch_count _ _ _ _ h1 h2]
  rfl

theorem emptied_walkStart_events (s : State) (f : Fw) : ((emptied s).walkStart f).events = s.events := by
  have ha : (emptied s).abandonMirror (some f) .walking 0 true = abandoned (emptied s) (some f) .walking 0 true := rfl
  unfold State.walkStart
  rw [ha]
  exact sendBatch_events _ _ _ _

theorem exec_tableReset {q : Request} {rest : List Request} (hh : s.heads q rest 19) (hp : s.permitsWrite q.port = true) :
    exec .tableReset s = .next ((State.tableResetOf { s with requests := rest }).send q) :=
  congrArg Host.Outcome.next (serve_write hh hp rfl (Nat.zero_le _) (fun v _ => v.tableResetOf))

/-- Settles O59: the table is emptied first, so the walk that follows finds no entry to free. -/
theorem tableResetForgetsEverySession : Obligations.TableResetForgetsEverySession := by
  intro s q rest hh hp
  rw [exec_tableReset hh hp]
  let v : State := { s with requests := rest }
  refine ⟨fun hph => ?_, fun hph => ?_⟩
  · have hv : v.tableResetOf = v.refuse .busy := if_pos hph
    rw [hv]
    exact congrArg Host.Outcome.next (send_answered hh rfl)
  · have hv : v.tableResetOf = { status := .ok, results := [], state := v.tableReset } := if_neg (not_not.mpr hph)
    rw [hv]
    refine ⟨_, rfl, ?_⟩
    have hcount := fun (w : State) (c : Counter) (hc : c ≠ .txDrop) =>
      handTx_count w q.port (w.replyFrame q .ok []) hc
    have hevents := fun w : State => handTx_events w q.port (w.replyFrame q .ok [])
    have k := handTx_sends v.tableReset q.port (v.tableReset.replyFrame q .ok [])
    have hsend : (Answer.send { status := .ok, results := [], state := v.tableReset } q) =
        v.tableReset.handTx q.port (v.tableReset.replyFrame q .ok []) := rfl
    rw [hsend, k.requests, k.table, k.park, k.mirror, k.role, k.health, k.decl, k.params,
      hcount _ _ (by decide), hcount _ _ (by decide), hevents]
    have hpre : (v.tableReset.handTx q.port (v.tableReset.replyFrame q .ok [])).prefixes = v.tableReset.prefixes := by rw [k]
    have hsw : (v.tableReset.handTx q.port (v.tableReset.replyFrame q .ok [])).sweepers = v.tableReset.sweepers := by rw [k]
    rw [hpre, hsw]
    cases ht : s.mirror.target with
    | none =>
      rw [tableReset_of_none (s := v) ht]
      exact ⟨rfl, rfl, rfl, rfl, rfl, ht, rfl, fun _ => ⟨rfl, rfl⟩, fun h => absurd rfl h,
        emptied_count_entriesFreed v, rfl, rfl, rfl, rfl, rfl, rfl, rfl⟩
    | some f =>
      have kw := emptied_walkStart_sends v f
      obtain ⟨h1, h2, -, h4⟩ := walkStart_mirror (emptied v) f
      rw [tableReset_of_target (s := v) ht]
      refine ⟨kw.requests, kw.table, kw.park, ?_, ?_, h1, ?_, fun h => absurd h (Option.some_ne_none f), fun _ => ⟨h4, h2, ?_⟩, ?_, kw.role,
        kw.health, kw.decl, kw.params, ?_, ?_, emptied_walkStart_events v f⟩
      · rw [kw.mirror]; rfl
      · rw [kw.mirror]; rfl
      · rw [kw.mirror]; rfl
      · rw [emptied_walkStart_count v f (by decide) (by decide), if_pos rfl, emptied_count (by decide) (by decide)]
        rfl
      · rw [emptied_walkStart_count v f (by decide) (by decide), if_neg (by decide)]
        exact emptied_count_entriesFreed v
      · rw [kw]; rfl
      · rw [kw]; rfl

end Sys2Proof.SessionTable

/-! Data frames of class TRACK (R83, R84): a frame that matches an entry (R26, R30 to R32), and a qualifying SYN that matches none
(R19 to R21). -/

namespace Sys2Proof.SessionTable

open Sys2Proof Sys2Proof.Machine Sys2Proof.Laws

variable {s t u : State}

/-! ## Tracking a frame -/

/-- From `s` to `t` only entries, the lanes with the walk's count, and counters may differ. -/
def Tracks (s t : State) : Prop :=
  t = { s with
    table := { s.table with entries := t.table.entries }, counters := t.counters
    mirror := { s.mirror with urgent := t.mirror.urgent, normal := t.mirror.normal, walkPending := t.mirror.walkPending } }

theorem Tracks.refl (s : State) : Tracks s s := rfl

theorem Tracks.trans (h : Tracks s t) (k : Tracks t u) : Tracks s u := by unfold Tracks at *; rw [k, h]

theorem Lanes.tracks (h : Lanes s t) : Tracks s t := by unfold Lanes at h; unfold Tracks; rw [h]

theorem Tracks.ports (h : Tracks s t) : t.ports = s.ports := by rw [h]

theorem Tracks.port (h : Tracks s t) (p : Port) : t.port p = s.port p := by simp only [State.port, h.ports]

theorem Tracks.park (h : Tracks s t) : t.park = s.park := by rw [h]

theorem Tracks.role (h : Tracks s t) : t.role = s.role := by rw [h]

theorem Tracks.slots (h : Tracks s t) : t.table.slots = s.table.slots := by rw [h]

theorem Tracks.occupancy (h : Tracks s t) : t.table.occupancy = s.table.occupancy := by rw [h]

theorem Tracks.tentative (h : Tracks s t) : t.table.tentative = s.table.tentative := by rw [h]

theorem Tracks.events (h : Tracks s t) : t.events = s.events := by rw [h]

/-- R30, R32: the entry tracked, an anomaly counted. -/
def segmented (s : State) (h : Nat) (e : Entry) (r : SegmentResult) : State :=
  if r.anomaly then (s.setEntry h { e with tcp := some r.tracking }).inc .anomalies
  else s.setEntry h { e with tcp := some r.tracking }

theorem trackFrame_segment {h : Nat} {e : Entry} {p : Port} {v : SessionView} {x : Tracking} {g : Segment} {d : Dir}
    (he : s.entry? h = some e) (hp : e.phase ≠ .retiring) (hx : e.tcp = some x) (hg : v.seg = some g)
    (hd : trackDir p e v = some d) : s.trackFrame h p v =
      if (x.segment d g).moved then (segmented s h e (x.segment d g)).driftTest h d else segmented s h e (x.segment d g) := by
  simp only [State.trackFrame, he, if_neg hp, hx, hg, hd]
  rfl

theorem trackFrame_untracked {h : Nat} {e : Entry} {p : Port} {v : SessionView} (he : s.entry? h = some e)
    (hn : e.tcp = none ∨ v.seg = none ∨ trackDir p e v = none) : s.trackFrame h p v = s := by
  simp only [State.trackFrame, he]
  split
  · rfl
  · split
    · rename_i ht hg hd; rcases hn with hn | hn | hn <;> simp_all
    · rfl

theorem segmented_tracks (s : State) (h : Nat) (e : Entry) (r : SegmentResult) : Tracks s (segmented s h e r) := by
  unfold segmented
  split <;> rfl

theorem segmented_self (s : State) (h : Nat) (e : Entry) (r : SegmentResult) :
    (segmented s h e r).entry? h = some { e with tcp := some r.tracking } := by
  unfold segmented
  split
  · rw [entry?_inc, entry?_setEntry, if_pos rfl]
  · rw [entry?_setEntry, if_pos rfl]

theorem segmented_others (s : State) (h : Nat) (e : Entry) (r : SegmentResult) : s.othersKept (segmented s h e r) h := by
  unfold segmented
  exact othersKept_ite (setEntry_others s h _) (setEntry_others s h _)

theorem segmented_count (s : State) (h : Nat) (e : Entry) (r : SegmentResult) (c : Counter) :
    (segmented s h e r).count c =
      if c = .anomalies ∧ r.anomaly = true then min (s.count .anomalies + 1) Config.counterMax else s.count c := by
  unfold segmented
  cases r.anomaly
  · simp; rfl
  · rw [if_pos rfl, count_inc]
    simp only [and_true]
    rfl

theorem trackFrame_tracks (s : State) (h : Nat) (p : Port) (v : SessionView) : Tracks s (s.trackFrame h p v) := by
  unfold State.trackFrame
  split
  · exact .refl s
  · rename_i e _
    split
    · exact .refl s
    · split
      · rename_i x g d _ _ _
        have k := segmented_tracks s h e (x.segment d g)
        dsimp only
        split
        · exact k.trans (driftTest_lanes _ h d).tracks
        · exact k
      · exact .refl s

theorem trackFrame_count {h : Nat} {p : Port} {v : SessionView} {c : Counter} (hc : c ≠ .anomalies) :
    (s.trackFrame h p v).count c = s.count c := by
  unfold State.trackFrame
  split
  · rfl
  · rename_i e _
    split
    · rfl
    · split
      · rename_i x g d _ _ _
        have k : (segmented s h e (x.segment d g)).count c = s.count c := by
          rw [segmented_count, if_neg (fun k => hc k.1)]
        dsimp only
        split
        · exact ((driftTest_lanes _ h d).count c).trans k
        · exact k
      · rfl

theorem raiseNeed_self (s : State) (h : Nat) (k : RecKind) :
    ∃ f, (s.raiseNeed h k).entry? h = (s.entry? h).map (·.mapMirror f) := by
  unfold State.raiseNeed
  split
  · exact ⟨_, lanePlace_self s h _ _ _⟩
  · exact ⟨_, setQueued_self s h _⟩
  · split
    · exact ⟨_, lanePlace_self s h _ _ _⟩
    · exact ⟨_, setQueued_self s h _⟩

theorem mapMirror_id (e : Entry) : e.mapMirror id = e := by
  obtain ⟨fam, pr, o, i, c, n, x, b⟩ := e
  cases b <;> rfl

theorem self_mapMirror (s : State) (h : Nat) : ∃ f, s.entry? h = (s.entry? h).map (·.mapMirror f) :=
  ⟨id, by cases s.entry? h <;> simp [mapMirror_id]⟩

/-- R94: a REFRESH request moves nothing of the entry but the Mirror Engine's fields. -/
theorem requestRefresh_self (s : State) (h : Nat) :
    ∃ f, (s.requestRefresh h).entry? h = (s.entry? h).map (·.mapMirror f) := by
  unfold State.requestRefresh
  split
  · exact self_mapMirror s h
  · split
    · split
      · exact self_mapMirror s h
      · split
        · exact raiseNeed_self s h _
        · exact self_mapMirror s h
    · exact self_mapMirror s h

theorem driftTest_self (s : State) (h : Nat) (d : Dir) :
    ∃ f, (s.driftTest h d).entry? h = (s.entry? h).map (·.mapMirror f) := by
  unfold State.driftTest
  split
  · split
    · split
      · exact requestRefresh_self s h
      · exact self_mapMirror s h
    · exact self_mapMirror s h
  · exact self_mapMirror s h

theorem requestRefresh_others (s : State) (h : Nat) : s.othersKept (s.requestRefresh h) h := by
  unfold State.requestRefresh
  split
  · exact othersKept_refl s h
  · split
    · exact othersKept_ite (othersKept_refl s h) (othersKept_ite (raiseNeed_others s h _) (othersKept_refl s h))
    · exact othersKept_refl s h

theorem driftTest_others (s : State) (h : Nat) (d : Dir) : s.othersKept (s.driftTest h d) h := by
  unfold State.driftTest
  split
  · split
    · exact othersKept_ite (requestRefresh_others s h) (othersKept_refl s h)
    · exact othersKept_refl s h
  · exact othersKept_refl s h

theorem trackFrame_others (s : State) (h : Nat) (p : Port) (v : SessionView) : s.othersKept (s.trackFrame h p v) h := by
  unfold State.trackFrame
  split
  · exact othersKept_refl s h
  · rename_i e _
    split
    · exact othersKept_refl s h
    · split
      · rename_i x g d _ _ _
        have k := segmented_others s h e (x.segment d g)
        dsimp only
        split
        · exact othersKept_trans k (driftTest_others _ h d)
        · exact k
      · exact othersKept_refl s h

/-- R30, R32: the entry after a segment tracked: its tracking fields by the steps of the segment, and perhaps a REFRESH needed. -/
theorem trackFrame_segment_self {h : Nat} {e : Entry} {p : Port} {v : SessionView} {x : Tracking} {g : Segment} {d : Dir}
    (he : s.entry? h = some e) (hp : e.phase ≠ .retiring) (hx : e.tcp = some x) (hg : v.seg = some g)
    (hd : trackDir p e v = some d) : ∃ f, (s.trackFrame h p v).entry? h =
      some (({ e with tcp := some (x.segment d g).tracking } : Entry).mapMirror f) := by
  rw [trackFrame_segment he hp hx hg hd]
  split
  · obtain ⟨f, hf⟩ := driftTest_self (segmented s h e (x.segment d g)) h d
    exact ⟨f, by rw [hf, segmented_self]; rfl⟩
  · exact ⟨id, by rw [segmented_self, mapMirror_id]⟩

theorem trackFrame_segment_anomalies {h : Nat} {e : Entry} {p : Port} {v : SessionView} {x : Tracking} {g : Segment} {d : Dir}
    (he : s.entry? h = some e) (hp : e.phase ≠ .retiring) (hx : e.tcp = some x) (hg : v.seg = some g)
    (hd : trackDir p e v = some d) : (s.trackFrame h p v).count .anomalies =
      if (x.segment d g).anomaly then min (s.count .anomalies + 1) Config.counterMax else s.count .anomalies := by
  have k : (segmented s h e (x.segment d g)).count .anomalies =
      if (x.segment d g).anomaly then min (s.count .anomalies + 1) Config.counterMax else s.count .anomalies := by
    rw [segmented_count]
    simp only [true_and]
  rw [trackFrame_segment he hp hx hg hd]
  split
  · exact ((driftTest_lanes _ h d).count _).trans k
  · exact k

/-- The entry of a frame tracked, whether or not it carries a segment. -/
theorem trackFrame_self {h : Nat} {e : Entry} (p : Port) (v : SessionView) (he : s.entry? h = some e) :
    ∃ f x, (s.trackFrame h p v).entry? h = some (({ e with tcp := x } : Entry).mapMirror f) := by
  by_cases hp : e.phase = .retiring
  · exact ⟨id, e.tcp, by rw [mapMirror_id]; simp only [State.trackFrame, he, hp, if_true]⟩
  · cases hx : e.tcp with
    | none => exact ⟨id, none, by rw [mapMirror_id, trackFrame_untracked he (.inl hx), he, ← hx]⟩
    | some x =>
      cases hg : v.seg with
      | none => exact ⟨id, some x, by rw [mapMirror_id, trackFrame_untracked he (.inr (.inl hg)), he, ← hx]⟩
      | some g =>
        cases hd : trackDir p e v with
        | none => exact ⟨id, some x, by rw [mapMirror_id, trackFrame_untracked he (.inr (.inr hd)), he, ← hx]⟩
        | some d =>
          obtain ⟨f, hf⟩ := trackFrame_segment_self he hp hx hg hd
          exact ⟨f, _, hf⟩

/-! ## A frame of class TRACK taken at a port -/

theorem steer_of_steersTo {p q : Port} (h : s.steersTo p q) : s.steer p = q := by
  rcases h with ⟨rfl, rfl⟩ | ⟨rfl, rfl⟩ | ⟨rfl | rfl, rfl⟩ | ⟨rfl | rfl, rfl⟩ <;> rfl

theorem not_refuses_of_mayEmit {p : Port} (h : s.mayEmit p) : s.refusesPort p = false := by
  unfold State.refusesPort
  split
  · rename_i f hf
    rcases h f hf with h | ⟨hl, hs⟩
    · simp [h]
    · simp [State.oldActive, hl, hs]
  · rfl

/-- R68, R81, R83: a TRACK frame from a port that may emit. -/
theorem exec_trackedFrame {p : Port} {f : Frame} {v : SessionView} (hd : isDataFrame f = true) (hm : s.mayEmit p)
    (hr : readFrame f = .session v) (hc : s.classify (.session v) = .track) :
    exec (.dataFrame p f) s = .next ((s.inc (.framesIn p)).trackedFrame p v f) := by
  simp only [isDataFrame, Bool.and_eq_true, Bool.not_eq_true'] at hd
  have hrec : s.receive p f = (s.inc (.framesIn p)).dataFrame p f := by
    simp [State.receive, hd.1, hd.2]
  have href : (s.inc (.framesIn p)).refusesPort p = false := not_refuses_of_mayEmit hm
  have hcl : (s.inc (.framesIn p)).classify (.session v) = .track := hc
  refine congrArg Host.Outcome.next (hrec.trans ?_)
  simp only [State.dataFrame, href, Bool.false_eq_true, if_false, hr, State.forwardByClass, hcl]

theorem not_parks {e : Entry} {p : Port} (h : (p = .lan ∨ p = .wan) → e.marked = false ∧ e.chain = []) :
    (mayPark p && e.parks) = false := by
  by_cases hp : p = .lan ∨ p = .wan
  · obtain ⟨h1, h2⟩ := h hp
    simp [Entry.parks, h1, h2]
  · have : mayPark p = false := by
      simp only [not_or] at hp
      simp [mayPark, hp.1, hp.2]
    rw [this]; rfl

/-- R26, R30: the state after a matched frame has been forwarded. -/
def forwardedState (s : State) (h : Nat) (p q : Port) (v : SessionView) (f : Frame) : State :=
  ((s.queued q f).refreshIdle h).trackFrame h p v

theorem exec_matchedFrame {p q : Port} {f : Frame} {v : SessionView} {h : Nat} {e : Entry} (hd : isDataFrame f = true)
    (hm : s.mayEmit p) (hst : s.steersTo p q) (hroom : s.hasRoom q 1) (hr : readFrame f = .session v)
    (hc : s.classify (.session v) = .track) (hl : s.lookup (frameKey p v) = some h) (he : s.entry? h = some e)
    (hp : (p = .lan ∨ p = .wan) → e.marked = false ∧ e.chain = []) :
    exec (.dataFrame p f) s = .next (forwardedState (s.inc (.framesIn p)) h p q v f) := by
  let w := s.inc (.framesIn p)
  have hl : w.lookup (frameKey p v) = some h := hl
  have hcan : w.canHand q = true := canHand_of_hasRoom (s := w) hroom
  rw [exec_trackedFrame hd hm hr hc]
  refine congrArg Host.Outcome.next ?_
  show w.trackedFrame p v f = _
  rw [State.trackedFrame, hl]
  simp only [show w.entry? h = some e from he, not_parks hp, Bool.false_eq_true, if_false,
    steer_of_steersTo (s := w) hst, State.forwardMatched, hcan, if_true, handTx_of_canHand hcan]
  rfl

theorem lookup_phase {k : Key} {h : Nat} {e : Entry} (hl : s.lookup k = some h) (he : s.entry? h = some e) :
    e.phase = .tentative ∨ e.phase = .live := by
  have := List.find?_some hl
  simpa [phase_of_entry he] using this

/-- Settles O15: forwarding touches the one queue and the one entry, which the segment's steps track. -/
theorem matchedFrameIsForwardedAndTracked : Obligations.MatchedFrameIsForwardedAndTracked := by
  intro p q f s v h e hd hm hst hroom hr hc hl he hpk
  let w := (s.inc (.framesIn p)).queued q f
  let e0 : Entry := { e with idleTag := 0 }
  have hw : w.entry? h = some e := he
  have he0 : (w.refreshIdle h).entry? h = some e0 := by rw [State.refreshIdle, modifyEntry_self, hw]; rfl
  have hret : e0.phase ≠ .retiring := by
    show e.phase ≠ _
    rcases lookup_phase hl he with hp | hp <;> rw [hp] <;> decide
  have hdir : trackDir p e0 v = trackDir p e v := by cases p <;> rfl
  obtain ⟨g, x, hself⟩ := trackFrame_self p v he0
  have kt := trackFrame_tracks (w.refreshIdle h) h p v
  have hcount : (w.refreshIdle h).count .anomalies = s.count .anomalies :=
    ((refreshIdle_lanes w h).count _).trans ((count_inc s .anomalies (.framesIn p)).trans (if_neg (by simp)))
  refine ⟨_, _, exec_matchedFrame hd hm hst hroom hr hc hl he hpk, hself, ?_, ?_, ?_, ?_, ?_, ?_, fun hdn => ?_,
    fun y k d hy hk hdd => ?_⟩
  · exact othersKept_trans (s := s) (t := w.refreshIdle h) (modifyEntry_others w h _) (trackFrame_others _ h p v)
  · exact kt.ports.trans (refreshIdle_lanes w h).ports
  · exact idleTag_mapMirror _ g
  · exact (phase_mapMirror _ g).trans rfl
  · exact outside_mapMirror _ g
  · exact declared?_mapMirror _ g
  · rw [trackFrame_untracked he0 (.inr (.inr (hdir.trans hdn))), he0, Option.some.injEq] at hself
    exact (congrArg Entry.tcp hself).symm
  · obtain ⟨g', hself'⟩ := trackFrame_segment_self he0 hret hy hk (hdir.trans hdd)
    rw [hself', Option.some.injEq] at hself
    refine ⟨(congrArg Entry.tcp hself).symm.trans (tcp_mapMirror _ g'), ?_⟩
    have ha := trackFrame_segment_anomalies he0 hret hy hk (hdir.trans hdd)
    rw [hcount] at ha
    exact ha

/-! ## A qualifying SYN -/

theorem lowestFree_used {α : Type} {es : SMap α} {n k : Nat} (h1 : n ≤ k) (h2 : k < lowestFree es n) :
    SMap.get? es k ≠ none := by
  induction es generalizing n with
  | nil => exact absurd h2 (Nat.not_lt.mpr h1)
  | cons x es ih =>
    obtain ⟨i, y⟩ := x
    simp only [lowestFree] at h2
    split at h2
    · rename_i hin
      simp only [SMap.get?]
      split
      · exact Option.some_ne_none y
      · exact ih (n := n + 1) (by omega) h2
    · omega

/-- R4: the handle taken is the lowest at which no entry stands. -/
theorem freeHandle_of_lowest {h : Nat} (hs : s.tableOk) (hh : h < Config.handles) (hf : s.entry? h = none)
    (hl : ∀ g, g < h → s.entry? g ≠ none) : s.freeHandle = some h := by
  have hfree : s.entry? (lowestFree s.table.entries 0) = none := lowestFree_free hs.1 (fun x _ => Nat.zero_le _)
  have hle : ¬ lowestFree s.table.entries 0 < h := fun hlt => hl _ hlt hfree
  have hge : ¬ h < lowestFree s.table.entries 0 := fun hlt => lowestFree_used (Nat.zero_le h) hlt hf
  have heq : lowestFree s.table.entries 0 = h := by omega
  simp [State.freeHandle, heq, hh]

theorem qualifiesSyn_of {p : Port} {v : SessionView} {g : Segment} (hp : p = .wan ∨ p = .aOut ∨ p = .bOut)
    (ht : v.proto = .tcp) (hg : v.seg = some g) (h1 : g.syn = true) (h2 : g.ackFlag = false) (h3 : g.rst = false) :
    qualifiesSyn p v = true := by
  rcases hp with rfl | rfl | rfl <;> simp [qualifiesSyn, hg, ht, h1, h2, h3, Port.outside]

/-- R83: a frame that matched nothing is forwarded before it is judged. -/
theorem exec_missedFrame {p q : Port} {f : Frame} {v : SessionView} (hd : isDataFrame f = true) (hm : s.mayEmit p)
    (hst : s.steersTo p q) (hroom : s.hasRoom q 1) (hr : readFrame f = .session v) (hc : s.classify (.session v) = .track)
    (hl : s.lookup (frameKey p v) = none) :
    exec (.dataFrame p f) s = .next (((s.inc (.framesIn p)).queued q f).afterMiss p v) := by
  let w := s.inc (.framesIn p)
  have hl : w.lookup (frameKey p v) = none := hl
  have hcan : w.canHand q = true := canHand_of_hasRoom (s := w) hroom
  rw [exec_trackedFrame hd hm hr hc]
  refine congrArg Host.Outcome.next ?_
  show w.trackedFrame p v f = _
  rw [State.trackedFrame, hl]
  simp only [steer_of_steersTo (s := w) hst, hcan, if_true, handTx_of_canHand hcan]
  rfl

/-- R79: a frame of the outside side leaves by the WAN port or an OUT port, where no NOTICE goes. -/
theorem outside_steer {p q : Port} (hst : s.steersTo p q) (hp : p = .wan ∨ p = .aOut ∨ p = .bOut) :
    q ≠ .aIn ∧ q ≠ .bIn ∧ q ≠ .lan := by
  have := steer_of_steersTo hst
  subst this
  rcases hp with rfl | rfl | rfl
  · simp only [State.steer]
    cases s.role.active <;> decide
  · exact ⟨nofun, nofun, nofun⟩
  · exact ⟨nofun, nofun, nofun⟩

theorem trackDir_tentative {p : Port} (v : SessionView) (hp : p = .wan ∨ p = .aOut ∨ p = .bOut) :
    trackDir p (tentativeEntry p v) v = some (if p = .wan then .inn else .out) := by
  rcases hp with rfl | rfl | rfl
  · simp [trackDir, tentativeEntry]
  · rfl
  · rfl

/-- R19, R20: a SYN whose checks pass opens an entry at the free handle. -/
theorem afterMiss_creates {p : Port} {v : SessionView} {h : Nat} (hq : qualifiesSyn p v = true) (hf : s.freeHandle = some h)
    (hl : s.table.tentative < s.param .tentativeLimit) (hb : s.bucketLoad (s.bucket (frameKey p v)) < 4) :
    s.afterMiss p v = s.createTentative p v h := by
  simp [State.afterMiss, hq, hf, State.belowLimit, hl, State.bucketRoom, hb]

theorem afterMiss_untracked {p : Port} {v : SessionView} (hq : qualifiesSyn p v = true)
    (hn : s.param .tentativeLimit ≤ s.table.tentative ∨ 4 ≤ s.bucketLoad (s.bucket (frameKey p v)) ∨ s.freeHandle = none) :
    s.afterMiss p v = s.untrackedSyn := by
  simp only [State.afterMiss, hq, Bool.not_true, Bool.false_eq_true, if_false]
  split
  · rename_i h hf
    rcases hn with hn | hn | hn
    · simp [State.belowLimit, Nat.not_lt.mpr hn]
    · simp [State.bucketRoom, Nat.not_lt.mpr hn]
    · rw [hf] at hn; cases hn
  · rfl

/-- R20: an untracked SYN is counted, and raises TENTATIVE_LIMIT at the limit. -/
theorem untrackedSyn_eq (s : State) : s.untrackedSyn = if s.param .tentativeLimit ≤ s.table.tentative then
    (s.inc .untrackedSyn).raise .tentativeLimit (be2 (s.param .tentativeLimit) ++ be2 s.table.tentative)
    else s.inc .untrackedSyn := by
  unfold State.untrackedSyn State.belowLimit
  by_cases h : s.table.tentative < s.param .tentativeLimit
  · simp [h, Nat.not_le.mpr h]
  · simp [h, Nat.not_lt.mp h]

theorem createTentative_entry {p : Port} {v : SessionView} {g : Segment} (h : Nat)
    (hp : p = .wan ∨ p = .aOut ∨ p = .bOut) (hg : v.seg = some g) :
    (s.createTentative p v h).entry? h = some { tentativeEntry p v with
      tcp := some (Tracking.segment .fresh (if p = .wan then .inn else .out) g).tracking } := by
  have he : ((((s.addEntry h (tentativeEntry p v)).placeKey h .outside (frameKey p v)).inc
      .tentativeCreated).compareTable).entry? h = some (tentativeEntry p v) := by
    rw [compareTable_entry?, entry?_inc, entry?_placeKey, entry?_addEntry, if_pos rfl]
  obtain ⟨f, hf⟩ := trackFrame_segment_self he (by simp [Entry.phase, tentativeEntry]) rfl hg (trackDir_tentative v hp)
  exact hf.trans (congrArg some (mapMirror_of_tentative rfl f))

theorem createTentative_others (s : State) (p : Port) (v : SessionView) (h : Nat) :
    s.othersKept (s.createTentative p v h) h := fun g hg => by
  rw [State.createTentative, trackFrame_others _ h p v g hg, compareTable_entry?, entry?_inc, entry?_placeKey,
    entry?_addEntry, if_neg hg]

/-- R4, R5, R15: what a new TENTATIVE entry makes of the slots and counts of the table. -/
theorem createTentative_table (s : State) (p : Port) (v : SessionView) (h : Nat) :
    SMap.get? (s.createTentative p v h).table.slots (2 * h + 1) =
        some { bucket := s.bucket (frameKey p v), key := frameKey p v } ∧
      (s.createTentative p v h).table.occupancy = s.table.occupancy + 1 ∧
      (s.createTentative p v h).table.tentative = s.table.tentative + 1 := by
  have k := trackFrame_tracks ((((s.addEntry h (tentativeEntry p v)).placeKey h .outside (frameKey p v)).inc
      .tentativeCreated).compareTable) h p v
  unfold State.createTentative
  rw [k.slots, k.occupancy, k.tentative, compareTable_table]
  exact ⟨(smap_get_put _ _ _ _).trans (if_pos rfl), rfl, rfl⟩

theorem createTentative_count (s : State) (p : Port) (v : SessionView) (h : Nat) :
    (s.createTentative p v h).count .tentativeCreated = min (s.count .tentativeCreated + 1) Config.counterMax := by
  unfold State.createTentative
  rw [trackFrame_count (by decide), compareTable_count _ (by decide), count_inc, if_pos rfl]
  rfl

theorem createTentative_port (s : State) (p : Port) (v : SessionView) (h : Nat) {q : Port}
    (hq : q ≠ .aIn ∧ q ≠ .bIn ∧ q ≠ .lan) : (s.createTentative p v h).port q = s.port q := by
  unfold State.createTentative
  rw [(trackFrame_tracks _ h p v).port, compareTable_port _ hq]
  rfl

/-- Settles O16: the checks of R20 decide between the entry of R19 and a SYN left untracked. -/
theorem synOpensATentativeEntryOrIsUntracked : Obligations.SynOpensATentativeEntryOrIsUntracked := by
  refine ⟨fun p q f s v g h hd hm hst hroom hr hc hl htcp hg hp h1 h2 h3 hlim hload hh hfree hlow hs => ?_,
    fun p q f s v g hd hm hst hroom hr hc hl htcp hg hp h1 h2 h3 hn => ?_⟩
  · let w := (s.inc (.framesIn p)).queued q f
    have hqs := qualifiesSyn_of hp htcp hg h1 h2 h3
    have hfh : w.freeHandle = some h := freeHandle_of_lowest (s := s) hs hh hfree hlow
    have hcr : w.afterMiss p v = w.createTentative p v h := afterMiss_creates hqs hfh hlim hload
    obtain ⟨t1, t2, t3⟩ := createTentative_table w p v h
    refine ⟨_, exec_missedFrame hd hm hst hroom hr hc hl, ?_⟩
    rw [hcr]
    refine ⟨createTentative_others w p v h, createTentative_entry h hp hg, t1, t2, t3, ?_, ?_⟩
    · refine (createTentative_count w p v h).trans (congrArg (fun n => min (n + 1) 4294967295) ?_)
      exact (count_inc s .tentativeCreated (.framesIn p)).trans (if_neg (by simp))
    · exact createTentative_port w p v h (outside_steer hst hp)
  · let w := (s.inc (.framesIn p)).queued q f
    have hqs := qualifiesSyn_of hp htcp hg h1 h2 h3
    have hcr : w.afterMiss p v = w.untrackedSyn := afterMiss_untracked hqs hn
    have hcount : w.count .untrackedSyn = s.count .untrackedSyn :=
      (count_inc s .untrackedSyn (.framesIn p)).trans (if_neg (by simp))
    have hinc : (w.inc .untrackedSyn).count .untrackedSyn = min (s.count .untrackedSyn + 1) 4294967295 := by
      rw [count_inc, if_pos rfl, hcount]
    have hq := outside_steer hst hp
    refine ⟨_, exec_missedFrame hd hm hst hroom hr hc hl, ?_⟩
    rw [hcr, untrackedSyn_eq]
    by_cases hlim : s.param .tentativeLimit ≤ s.table.tentative
    · have hlim' : w.param .tentativeLimit ≤ w.table.tentative := hlim
      rw [if_pos hlim', if_pos hlim]
      refine ⟨?_, raise_port_off hq _ _ _, (raise_count _ _ _ (by decide)).trans hinc, ?_⟩
      · exact (show Sends s (w.inc .untrackedSyn) from rfl).trans (raise_sends _ _ _)
      · rw [raise_event, if_pos rfl]; rfl
    · have hlim' : ¬ w.param .tentativeLimit ≤ w.table.tentative := hlim
      rw [if_neg hlim', if_neg hlim]
      exact ⟨rfl, rfl, hinc, rfl⟩

end Sys2Proof.SessionTable

/-! A PUT (R55 to R62): the waits behind RETIRING holders, and the entry that a PUT of new keys allocates. -/

namespace Sys2Proof.SessionTable

open Sys2Proof Sys2Proof.Machine Sys2Proof.Laws

variable {s t u : State}

/-! ## Waits and blocks lists -/

/-- R62: the handles that hold one of the keys, among the RETIRING ones. -/
theorem mem_retiringHolders {k1 k2 : Key} {g : Nat} : g ∈ s.retiringHolders k1 k2 ↔
    s.phase g = .retiring ∧ (g ∈ s.holders k1 ∨ g ∈ s.holders k2) := by
  simp only [State.retiringHolders, List.mem_filter, Bool.and_eq_true, Bool.or_eq_true, beq_iff_eq, List.contains_iff_mem]
  refine ⟨fun h => h.2, fun h => ⟨?_, h⟩⟩
  obtain ⟨e, he, _⟩ := entry_of_phase h.1 nofun
  exact mem_handles he

theorem retiringHolders_nodup (hs : s.tableOk) (k1 k2 : Key) : (s.retiringHolders k1 k2).Nodup :=
  (handles_nodup hs).filter _

theorem not_mem_retiringHolders {k1 k2 : Key} {g : Nat} (hp : s.phase g ≠ .retiring) : g ∉ s.retiringHolders k1 k2 :=
  fun h => hp (mem_retiringHolders.mp h).1

theorem blocksFor_kept {h g : Nat} {ws bs : List Nat} (hg : g ∉ ws) (hb : h ∉ bs) : blocksFor h ws g bs = bs := by
  have hf : bs.filter (· != h) = bs := List.filter_eq_self.mpr fun x hx => bne_iff_ne.mpr fun hx' => hb (hx' ▸ hx)
  simp [blocksFor, hg, hf]

theorem blocksFor_joined {h g : Nat} {ws bs : List Nat} (hg : g ∈ ws) (hb : h ∉ bs) : blocksFor h ws g bs = bs ++ [h] := by
  simp [blocksFor, hg, hb]

theorem mem_blocksFor (h g : Nat) (ws bs : List Nat) : h ∈ blocksFor h ws g bs ↔ g ∈ ws := by
  by_cases hg : g ∈ ws <;> by_cases hb : h ∈ bs <;> simp [blocksFor, hg, hb]

/-- R62: the places of the other handles in a blocks list stay. -/
theorem blocksFor_filter (h g : Nat) (ws bs : List Nat) :
    (blocksFor h ws g bs).filter (· != h) = bs.filter (· != h) := by
  by_cases hg : g ∈ ws <;> by_cases hb : h ∈ bs <;> simp [blocksFor, hg, hb]

theorem mapBlocks_of_retiring {e : Entry} {d : Declared} {m : MirrorPart} {bs : List Nat} (hb : e.body = .retiring d m bs)
    (g : List Nat → List Nat) : e.mapBlocks g = { e with body := .retiring d m (g bs) } := by
  simp [Entry.mapBlocks, hb]

theorem setWaits_other (h : Nat) (ws : List Nat) {g : Nat} (hg : g ≠ h) :
    (s.setWaits h ws).entry? g = (s.entry? g).map (·.mapBlocks (blocksFor h ws g)) := by
  rw [State.setWaits, modifyEntry_others _ h _ g hg, entry?_mapAllBlocks]

theorem setWaits_self {h : Nat} {e : Entry} (ws : List Nat) (he : s.entry? h = some e) (hp : e.phase ≠ .retiring) :
    (s.setWaits h ws).entry? h = some (e.mapLive (fun l => { l with waits := ws.length })) := by
  rw [State.setWaits, modifyEntry_self, entry?_mapAllBlocks, he, Option.map_some, Option.map_some,
    mapBlocks_of_not_retiring hp]

/-- R62: an entry that is in no list it leaves and joins none stays. -/
theorem setWaits_kept {h g : Nat} {ws : List Nat} (hg : g ≠ h) (hw : g ∉ ws) (hb : ∀ x, s.entry? g = some x → h ∉ x.blocks) :
    (s.setWaits h ws).entry? g = s.entry? g := by
  rw [setWaits_other h ws hg]
  cases he : s.entry? g with
  | none => rfl
  | some x => exact congrArg some (mapBlocks_of_eq (blocksFor_kept hw (hb x he)))

/-! ## A new LIVE entry -/

theorem withScales_fresh (sc : Option (Nat × Nat)) : Tracking.fresh.withScales sc =
    { out := { hiSeq := none, hiAck := none, maxWin := none }, inn := { hiSeq := none, hiAck := none, maxWin := none },
      scaleOut := (sc.map (fun p => min p.1 14)).getD 0, scaleIn := (sc.map (fun p => min p.2 14)).getD 0,
      scaleKnown := sc.isSome, anomalies := 0 } := by
  cases sc <;> rfl

theorem roomForBoth_of {ki ko : Key}
    (h1 : s.bucket ki ≠ s.bucket ko → s.bucketLoad (s.bucket ki) < 4 ∧ s.bucketLoad (s.bucket ko) < 4)
    (h2 : s.bucket ki = s.bucket ko → s.bucketLoad (s.bucket ki) + 2 ≤ 4) : s.roomForBoth ki ko = true := by
  unfold State.roomForBoth
  split
  · rename_i h; exact decide_eq_true (h2 h)
  · rename_i h; simp [State.bucketRoom, (h1 h).1, (h1 h).2]

/-- R55: a PUT of keys that no LIVE or TENTATIVE entry holds is one of a new entry. -/
theorem put_of_newKeys {r : DeclRecord} (f : Fw) (h1 : s.holderIn r.insideKey .live = none)
    (h2 : s.holderIn r.outsideKey .tentative = none) (h3 : s.holderIn r.outsideKey .live = none) :
    s.put f r = s.putAllocate f r := by
  simp [State.put, h1, h2, h3]

/-- R61, R62: the new entry placed, before it waits and is counted. -/
def placedEntry (s : State) (h : Nat) (f : Fw) (r : DeclRecord) : State :=
  ((s.addEntry h (r.newEntry f)).placeKey h .inside r.insideKey).placeKey h .outside r.outsideKey

/-- R61: the state that a PUT of new keys leaves. -/
def allocated (s : State) (h : Nat) (f : Fw) (r : DeclRecord) : State :=
  (((placedEntry s h f r).setWaits h (s.retiringHolders r.insideKey r.outsideKey)).inc .entriesCreated).compareTable

theorem putAllocate_of {f : Fw} {r : DeclRecord} {h : Nat} (hf : s.freeHandle = some h)
    (hr : s.roomForBoth r.insideKey r.outsideKey = true) :
    s.putAllocate f r = if 2 < (s.retiringHolders r.insideKey r.outsideKey).length then .error .keyClash
      else .ok (h, allocated s h f r) := by
  simp only [State.putAllocate, hf, hr, Bool.not_true, Bool.false_eq_true, if_false]
  rfl

theorem placedEntry_entry (s : State) (h : Nat) (f : Fw) (r : DeclRecord) (g : Nat) :
    (placedEntry s h f r).entry? g = if g = h then some (r.newEntry f) else s.entry? g :=
  entry?_addEntry s h g (r.newEntry f)

theorem allocated_entry (s : State) (h : Nat) (f : Fw) (r : DeclRecord) (g : Nat) : (allocated s h f r).entry? g =
    ((placedEntry s h f r).setWaits h (s.retiringHolders r.insideKey r.outsideKey)).entry? g := by
  rw [allocated, compareTable_entry?, entry?_inc]

theorem allocated_self (s : State) (h : Nat) (f : Fw) (r : DeclRecord) : (allocated s h f r).entry? h =
    some ((r.newEntry f).mapLive (fun l =>
      { l with waits := (s.retiringHolders r.insideKey r.outsideKey).length })) := by
  rw [allocated_entry]
  exact setWaits_self _ ((placedEntry_entry s h f r h).trans (if_pos rfl)) nofun

theorem allocated_kept {h : Nat} {f : Fw} {r : DeclRecord} (hb : ∀ g x, s.entry? g = some x → h ∉ x.blocks) {g : Nat}
    (hg : g ≠ h) (hw : g ∉ s.retiringHolders r.insideKey r.outsideKey) : (allocated s h f r).entry? g = s.entry? g := by
  have hp : (placedEntry s h f r).entry? g = s.entry? g := (placedEntry_entry s h f r g).trans (if_neg hg)
  rw [allocated_entry, setWaits_kept hg hw (fun x hx => hb g x (hp ▸ hx)), hp]

theorem allocated_joined {h : Nat} {f : Fw} {r : DeclRecord} {g : Nat} {x : Entry} {d : Declared} {m : MirrorPart}
    {bs : List Nat} (hg : g ≠ h) (hw : g ∈ s.retiringHolders r.insideKey r.outsideKey) (hx : s.entry? g = some x)
    (hb : x.body = .retiring d m bs) (hn : h ∉ bs) :
    (allocated s h f r).entry? g = some { x with body := .retiring d m (bs ++ [h]) } := by
  have hp : (placedEntry s h f r).entry? g = some x := ((placedEntry_entry s h f r g).trans (if_neg hg)).trans hx
  rw [allocated_entry, setWaits_other h _ hg, hp, Option.map_some, mapBlocks_of_retiring hb, blocksFor_joined hw hn]

/-- The table before its occupancy is compared. -/
theorem waiting_table (s : State) (h : Nat) (f : Fw) (r : DeclRecord) (ws : List Nat) :
    let w := ((placedEntry s h f r).setWaits h ws).inc .entriesCreated
    w.table.slots = (placedEntry s h f r).table.slots ∧ w.table.occupancy = s.table.occupancy + 1 ∧
      w.table.tentative = s.table.tentative ∧ w.table.levels = s.table.levels := by
  have k := setWaits_lanes (placedEntry s h f r) h ws
  exact ⟨k.slots, k.occupancy, k.tentative, k.levels⟩

/-- R5, R15: both keys are placed, and the occupancy rises by one. -/
theorem allocated_table (s : State) (h : Nat) (f : Fw) (r : DeclRecord) :
    SMap.get? (allocated s h f r).table.slots (2 * h) = some { bucket := s.bucket r.insideKey, key := r.insideKey } ∧
    SMap.get? (allocated s h f r).table.slots (2 * h + 1) =
      some { bucket := s.bucket r.outsideKey, key := r.outsideKey } ∧
    (allocated s h f r).table.occupancy = s.table.occupancy + 1 ∧
    (allocated s h f r).table.tentative = s.table.tentative := by
  obtain ⟨hsl, ho, ht, _⟩ := waiting_table s h f r (s.retiringHolders r.insideKey r.outsideKey)
  unfold allocated
  rw [compareTable_table]
  refine ⟨?_, ?_, ho, ht⟩
  · refine (congrArg (SMap.get? · (2 * h)) hsl).trans ((smap_get_put _ _ _ _).trans ?_)
    exact (if_neg (show 2 * h ≠ 2 * h + 1 by omega)).trans ((smap_get_put _ _ _ _).trans (if_pos rfl))
  · exact (congrArg (SMap.get? · (2 * h + 1)) hsl).trans ((smap_get_put _ _ _ _).trans (if_pos rfl))

/-- R6: a comparison sets the flag of each level that the occupancy reaches. -/
theorem compareTable_levels (s : State) (n : Fin 3) : s.compareTable.table.levels.get n = (s.table.levels.get n ||
    decide (s.param (.tableLevel n) * 16384 ≤ s.table.occupancy * 100)) := by
  refine (compareTableLevel_compares.three_level s n).trans ?_
  unfold tableNew State.tableReached
  cases s.table.levels.get n <;> rfl

theorem allocated_levels (s : State) (h : Nat) (f : Fw) (r : DeclRecord) (n : Fin 3) :
    (allocated s h f r).table.levels.get n = (s.table.levels.get n ||
      decide (s.param (.tableLevel n) * 16384 ≤ (s.table.occupancy + 1) * 100)) := by
  obtain ⟨_, ho, _, hl⟩ := waiting_table s h f r (s.retiringHolders r.insideKey r.outsideKey)
  have k := setWaits_lanes (placedEntry s h f r) h (s.retiringHolders r.insideKey r.outsideKey)
  unfold allocated
  rw [compareTable_levels, ho, hl, (inc_tends _ _).works.param, k.works.param]
  rfl

theorem allocated_count (s : State) (h : Nat) (f : Fw) (r : DeclRecord) :
    (allocated s h f r).count .entriesCreated = min (s.count .entriesCreated + 1) Config.counterMax := by
  unfold allocated
  rw [compareTable_count _ (by decide), count_inc, if_pos rfl, (setWaits_lanes _ h _).count]
  rfl

theorem allocated_mirror (s : State) (h : Nat) (f : Fw) (r : DeclRecord) :
    (allocated s h f r).mirror = s.mirror ∧ (allocated s h f r).role = s.role := by
  let ws := s.retiringHolders r.insideKey r.outsideKey
  let w := ((placedEntry s h f r).setWaits h ws).inc .entriesCreated
  refine ⟨(compareTable_raises w).mirror.trans (modifyEntry_mirror _ h _), ?_⟩
  exact (compareTable_tends w).role.trans (setWaits_lanes (placedEntry s h f r) h ws).role

/-- Settles O24: the entry at the free handle, the lists it joins, and the counts its making moves. -/
theorem putAllocatesALiveEntry : Obligations.PutAllocatesALiveEntry := by
  intro s f r h hs hh hfree hlow h1 h2 h3 hb1 hb2 hblocks
  have hput := (put_of_newKeys f h1 h2 h3).trans
    (putAllocate_of (f := f) (freeHandle_of_lowest hs hh hfree hlow) (roomForBoth_of hb1 hb2))
  refine ⟨retiringHolders_nodup hs _ _, fun g => mem_retiringHolders, fun hlt => hput.trans (if_pos hlt), fun hle => ?_⟩
  obtain ⟨t1, t2, t3, t4⟩ := allocated_table s h f r
  have hnot : h ∉ s.retiringHolders r.insideKey r.outsideKey :=
    not_mem_retiringHolders (by rw [phase_of_none hfree]; nofun)
  refine ⟨_, hput.trans (if_neg (Nat.not_lt.mpr hle)), fun g hg hw => allocated_kept hblocks hg hw,
    fun g x d m bs hw hx hb => ?_, ?_, t1, t2, t3, t4, allocated_levels s h f r, allocated_count s h f r,
    (allocated_mirror s h f r).1, (allocated_mirror s h f r).2⟩
  · have hn : h ∉ bs := by have := hblocks g x hx; rwa [Entry.blocks, hb] at this
    exact allocated_joined (fun hgh => hnot (hgh ▸ hw)) hw hx hb hn
  · rw [allocated_self, DeclRecord.newEntry, withScales_fresh]
    rfl

end Sys2Proof.SessionTable

/-! A PUT that finds an entry (R56 to R59): the content replaced, the remap, the absorption and the promotion. -/

namespace Sys2Proof.SessionTable

open Sys2Proof Sys2Proof.Machine Sys2Proof.Laws

variable {s t u : State}

/-! ## The content of an entry replaced (R37, R56) -/

/-- R37: what a record's scale pair makes of the tracking fields. -/
def rescaled (r : DeclRecord) (x : Tracking) : Tracking :=
  match r.scales with
  | none => x
  | some p => { x with
      scaleOut := min p.1 14, scaleIn := min p.2 14, scaleKnown := true
      out := { x.out with maxWin := none }, inn := { x.inn with maxWin := none } }

theorem withScales_eq (r : DeclRecord) (x : Tracking) : x.withScales r.scales = rescaled r x := by
  unfold rescaled
  cases r.scales <;> rfl

theorem map_rescaled_none {r : DeclRecord} (hr : r.scales = none) (x : Option Tracking) : x.map (rescaled r) = x := by
  cases x <;> simp [rescaled, hr]

theorem rescaled_some {r : DeclRecord} {p : Nat × Nat} (hr : r.scales = some p) : rescaled r = fun x => { x with
    scaleOut := min p.1 14, scaleIn := min p.2 14, scaleKnown := true
    out := { x.out with maxWin := none }, inn := { x.inn with maxWin := none } } := by
  funext x
  simp [rescaled, hr]

theorem map_withScales (r : DeclRecord) (x : Option Tracking) : x.map (·.withScales r.scales) = x.map (rescaled r) :=
  Option.map_congr fun y _ => withScales_eq r y

theorem replace_sameKey {e : Entry} {r : DeclRecord} {d : Declared} {m : MirrorPart} {l : LivePart} (f : Fw)
    (hb : e.body = .live d m l) (hk : e.outsideKey = r.outsideKey) : e.replace r f =
      { e with initiator := r.initiator, agingClass := r.agingClass, idleTag := 0, tcp := e.tcp.map (rescaled r)
               body := .live (r.declared f) m l } := by
  simp [Entry.replace, hk, hb, Body.redeclare, map_withScales]

theorem replace_newKey {e : Entry} {r : DeclRecord} {d : Declared} {m : MirrorPart} {l : LivePart} (f : Fw)
    (hb : e.body = .live d m l) (hk : e.outsideKey ≠ r.outsideKey) : e.replace r f =
      { e with outside := r.outside, initiator := r.initiator, agingClass := r.agingClass, idleTag := 0
               tcp := e.tcp.map (rescaled r), body := .live (r.declared f) m l } := by
  simp [Entry.replace, hk, hb, Body.redeclare, map_withScales]

theorem holderIn_phase {k : Key} {ph : Phase} {h : Nat} (hl : s.holderIn k ph = some h) : s.phase h = ph :=
  by simpa using List.find?_some hl

theorem put_of_liveHolder {f : Fw} {r : DeclRecord} {h : Nat} {e : Entry} (hl : s.holderIn r.insideKey .live = some h)
    (he : s.entry? h = some e) : s.put f r = s.putReplace f r h e := by
  simp [State.put, hl, he]

/-- R56: the outside key is the entry's own, so nothing but the entry changes. -/
theorem put_replaces {f : Fw} {r : DeclRecord} {h : Nat} {e : Entry} {d : Declared} {m : MirrorPart} {l : LivePart}
    (hl : s.holderIn r.insideKey .live = some h) (he : s.entry? h = some e) (hb : e.body = .live d m l)
    (hk : e.outsideKey = r.outsideKey) : s.put f r = .ok (h, s.setEntry h
      { e with initiator := r.initiator, agingClass := r.agingClass, idleTag := 0, tcp := e.tcp.map (rescaled r)
               body := .live (r.declared f) m l }) := by
  rw [put_of_liveHolder hl he, State.putReplace, if_pos hk, modifyEntry_of_entry he, replace_sameKey f hb hk]

/-! ## The remap (R57, R58) -/

/-- R57: the buckets leave room for the new outside key of the entry. -/
def movesInto (s : State) (e : Entry) (r : DeclRecord) : Prop :=
  s.bucket r.outsideKey = s.bucket e.outsideKey ∨ s.bucketLoad (s.bucket r.outsideKey) < 4

theorem remapRoom_iff {e : Entry} {r : DeclRecord} (ht : s.holderIn r.outsideKey .tentative = none) :
    s.remapRoom e r = true ↔ movesInto s e r := by
  simp [State.remapRoom, ht, State.bucketRoom, movesInto]

theorem remapRoom_of_tentative {e : Entry} {r : DeclRecord} {g : Nat} (ht : s.holderIn r.outsideKey .tentative = some g) :
    s.remapRoom e r = true := by
  simp [State.remapRoom, ht]

/-- R57: the remap refused, in the order of its checks. -/
theorem putReplace_clash {f : Fw} {r : DeclRecord} {h : Nat} {e : Entry} (hk : e.outsideKey ≠ r.outsideKey)
    (hc : s.holderIn r.outsideKey .live ≠ none ∨ 2 < (s.retiringHolders r.insideKey r.outsideKey).length) :
    s.putReplace f r h e = .error .keyClash := by
  rw [State.putReplace, if_neg hk]
  rcases hc with hc | hc
  · rw [if_pos (Option.isSome_iff_ne_none.mpr hc)]
  · rw [if_pos (show Config.maxWaits < _ from hc), ite_self]

theorem putReplace_full {f : Fw} {r : DeclRecord} {h : Nat} {e : Entry} (hk : e.outsideKey ≠ r.outsideKey)
    (hl : s.holderIn r.outsideKey .live = none) (hw : (s.retiringHolders r.insideKey r.outsideKey).length ≤ 2)
    (hr : s.remapRoom e r = false) : s.putReplace f r h e = .error .bucketFull := by
  simp [State.putReplace, hk, hl, hr, Config.maxWaits, Nat.not_lt.mpr hw]

/-- R57: the remap made, then the content replaced. -/
theorem putReplace_remaps {f : Fw} {r : DeclRecord} {h : Nat} {e : Entry} (hk : e.outsideKey ≠ r.outsideKey)
    (hl : s.holderIn r.outsideKey .live = none) (hw : (s.retiringHolders r.insideKey r.outsideKey).length ≤ 2)
    (hr : s.remapRoom e r = true) :
    s.putReplace f r h e = .ok (h, (s.remap h r).modifyEntry h (·.replace r f)) := by
  simp [State.putReplace, hk, hl, hr, Config.maxWaits, Nat.not_lt.mpr hw]

/-- R57: the remap of an entry from the state that the absorption leaves. -/
def remapped (s : State) (h : Nat) (r : DeclRecord) (f : Fw) (ws : List Nat) : State :=
  ((s.placeKey h .outside r.outsideKey).setWaits h ws).modifyEntry h (·.replace r f)

theorem modifyEntry_onlyTable (s : State) (h : Nat) (f : Entry → Entry) :
    s.modifyEntry h f = { s with table := (s.modifyEntry h f).table } := by
  unfold State.modifyEntry
  split <;> rfl

theorem remapped_onlyTable (s : State) (h : Nat) (r : DeclRecord) (f : Fw) (ws : List Nat) :
    remapped s h r f ws = { s with table := (remapped s h r f ws).table } := by
  unfold remapped
  rw [modifyEntry_onlyTable, State.setWaits, modifyEntry_onlyTable (State.mapAllBlocks _ _)]
  rfl

theorem remapped_lanes (s : State) (h : Nat) (r : DeclRecord) (f : Fw) (ws : List Nat) :
    Lanes (s.placeKey h .outside r.outsideKey) (remapped s h r f ws) :=
  (setWaits_lanes _ h ws).trans (modifyEntry_lanes _ h _)

/-- R15: the entry's outside slot holds the new key; no other slot moves. -/
theorem remapped_slots (s : State) (h : Nat) (r : DeclRecord) (f : Fw) (ws : List Nat) (n : Nat) :
    SMap.get? (remapped s h r f ws).table.slots n =
      if n = 2 * h + 1 then some { bucket := s.bucket r.outsideKey, key := r.outsideKey } else SMap.get? s.table.slots n := by
  rw [(remapped_lanes s h r f ws).slots]
  exact smap_get_put _ _ _ _

theorem remapped_other {h g : Nat} (r : DeclRecord) (f : Fw) (ws : List Nat) (hg : g ≠ h) :
    (remapped s h r f ws).entry? g = (s.entry? g).map (·.mapBlocks (blocksFor h ws g)) := by
  rw [remapped, modifyEntry_others _ h _ g hg, setWaits_other h ws hg, entry?_placeKey]

theorem remapped_self {h : Nat} {e : Entry} {r : DeclRecord} {d : Declared} {m : MirrorPart} {l : LivePart} (f : Fw)
    (ws : List Nat) (he : s.entry? h = some e) (hb : e.body = .live d m l) (hk : e.outsideKey ≠ r.outsideKey) :
    (remapped s h r f ws).entry? h = some
      { e with outside := r.outside, initiator := r.initiator, agingClass := r.agingClass, idleTag := 0
               tcp := e.tcp.map (rescaled r), body := .live (r.declared f) m { l with waits := ws.length } } := by
  have hp : e.phase ≠ .retiring := by rw [phase_of_live hb]; nofun
  have hm : e.mapLive (fun l => { l with waits := ws.length }) = e.withLive d m { l with waits := ws.length } := by
    simp [Entry.mapLive, hb, Entry.withLive]
  have hk' : (e.withLive d m { l with waits := ws.length }).outsideKey ≠ r.outsideKey := hk
  rw [remapped, modifyEntry_self, setWaits_self (s := s.placeKey h .outside r.outsideKey) ws he hp, hm, Option.map_some,
    replace_newKey f rfl hk']
  rfl

theorem absorb_of_none {h : Nat} {r : DeclRecord} (ht : s.holderIn r.outsideKey .tentative = none) : s.absorb h r = s := by
  simp [State.absorb, ht]

/-- R58: the state after a TENTATIVE holder of the new outside key has been absorbed. -/
def absorbed (s : State) (h g : Nat) (x : Option Tracking) : State :=
  (s.modifyEntry h (fun e => { e with tcp := x })).freeEntry g

theorem absorb_of_holder {h g : Nat} {r : DeclRecord} {e y : Entry} (ht : s.holderIn r.outsideKey .tentative = some g)
    (hy : s.entry? g = some y) (he : s.entry? h = some e) :
    s.absorb h r = absorbed s h g (carriedTracking e y r) := by
  simp only [State.absorb, ht, hy, absorbed, modifyEntry_of_entry he]

theorem blocks_of_tentative {y : Entry} (hp : y.phase = .tentative) : y.blocks = [] ∧ y.waits = 0 := by
  have hb := phase_eq_tentative.mp hp
  simp [Entry.blocks, Entry.waits, Entry.live?, hb]

/-- R8, R58: what absorbing a TENTATIVE entry leaves of the table. -/
theorem absorbed_table {h g : Nat} {e y : Entry} (x : Option Tracking) (hs : s.tableOk) (he : s.entry? h = some e)
    (hy : s.entry? g = some y) (hp : y.phase = .tentative) (hg : g ≠ h) :
    (absorbed s h g x).entry? g = none ∧ (absorbed s h g x).entry? h = some { e with tcp := x } ∧
      SMap.get? (absorbed s h g x).table.slots (2 * g + 1) = none ∧
      (absorbed s h g x).table.occupancy = s.table.occupancy - 1 ∧
      (absorbed s h g x).table.tentative = s.table.tentative - 1 ∧
      (absorbed s h g x).count .entriesFreed = min (s.count .entriesFreed + 1) Config.counterMax := by
  have k := modifyEntry_lanes s h (fun e => { e with tcp := x })
  have hs' : (s.modifyEntry h (fun e => { e with tcp := x })).tableOk :=
    (modifyEntry_held s h (g := fun e => { e with tcp := x }) (fun _ => rfl)).table hs
  have hy' : (s.modifyEntry h (fun e => { e with tcp := x })).entry? g = some y :=
    (modifyEntry_others s h _ g hg).trans hy
  have he' : (s.modifyEntry h (fun e => { e with tcp := x })).entry? h = some { e with tcp := x } := by
    rw [modifyEntry_self, he]; rfl
  obtain ⟨hb, hw⟩ := blocks_of_tentative hp
  obtain ⟨h1, -, -, h4, h5, h6⟩ := freeEntry_table hs' hy'
  refine ⟨h1, freeEntry_keeps hs' hy' hg.symm he' hb (.inl hw), h4, h5.trans (by rw [k.occupancy]), ?_, ?_⟩
  · exact h6.trans (by rw [if_pos hp, k.tentative])
  · exact (freeEntry_entriesFreed hy').trans (by rw [k.count])

theorem noEdges_iff (x : Tracking) : x.noEdges = true ↔
    x.out = { hiSeq := none, hiAck := none, maxWin := none } ∧ x.inn = { hiSeq := none, hiAck := none, maxWin := none } := by
  simp [Tracking.noEdges, DirEdges.invalid]

/-- R58: the tracking carried, when both entries have some. -/
theorem carriedTracking_some {e y : Entry} {x z : Tracking} (r : DeclRecord) (hx : e.tcp = some x) (hz : y.tcp = some z) :
    carriedTracking e y r = some
      (if x.out = { hiSeq := none, hiAck := none, maxWin := none } ∧ x.inn = { hiSeq := none, hiAck := none, maxWin := none }
        then (if y.outside.loc ≠ y.outside.rem ∧ y.outside.loc = r.outside.rem then
          { z with out := z.inn, inn := z.out, scaleOut := z.scaleIn, scaleIn := z.scaleOut } else z) else x) := by
  simp only [carriedTracking, hx, hz, ← noEdges_iff, Tracking.swapped]
  split <;> rfl

/-! ## The promotion (R59) -/

/-- R59: the entry promoted and its inside key placed, before it waits and is counted. -/
def promotedEntry (s : State) (h : Nat) (f : Fw) (r : DeclRecord) : State :=
  let w := (s.modifyEntry h (·.promote r f)).placeKey h .inside r.insideKey
  { w with table := { w.table with tentative := w.table.tentative - 1 } }

theorem put_promotes {f : Fw} {r : DeclRecord} {h : Nat} (h1 : s.holderIn r.insideKey .live = none)
    (h2 : s.holderIn r.outsideKey .tentative = some h) (hb : s.bucketLoad (s.bucket r.insideKey) < 4)
    (hw : s.retiringHolders r.insideKey r.outsideKey = []) :
    s.put f r = .ok (h, ((promotedEntry s h f r).setWaits h []).inc .entriesPromoted) := by
  simp only [State.put, h1, h2, State.putPromote, hw, List.length_nil, State.bucketRoom, hb, Config.slotsPerBucket,
    decide_true, Bool.not_true, Bool.false_eq_true, if_false, Nat.not_lt_zero]
  rfl

theorem promotedEntry_self {h : Nat} {e : Entry} (f : Fw) (r : DeclRecord) (he : s.entry? h = some e) :
    (promotedEntry s h f r).entry? h = some (e.promote r f) :=
  (modifyEntry_self s h _).trans (by rw [he]; rfl)

theorem promotedEntry_others (s : State) (h : Nat) (f : Fw) (r : DeclRecord) : s.othersKept (promotedEntry s h f r) h :=
  modifyEntry_others s h _

/-- R59: promoting an entry in no blocks list, behind no holder, touches no other entry. -/
theorem promoted_others {h : Nat} {f : Fw} {r : DeclRecord} (hb : ∀ g x, s.entry? g = some x → h ∉ x.blocks) :
    s.othersKept ((promotedEntry s h f r).setWaits h []) h := fun g hg => by
  have hp := promotedEntry_others s h f r g hg
  rw [setWaits_kept hg List.not_mem_nil (fun x hx => hb g x (hp ▸ hx)), hp]

theorem promoted_table (s : State) (h : Nat) (f : Fw) (r : DeclRecord) :
    SMap.get? ((promotedEntry s h f r).setWaits h []).table.slots (2 * h) =
        some { bucket := s.bucket r.insideKey, key := r.insideKey } ∧
      ((promotedEntry s h f r).setWaits h []).table.tentative = s.table.tentative - 1 ∧
      ((promotedEntry s h f r).setWaits h []).table.occupancy = s.table.occupancy := by
  have k := modifyEntry_lanes s h (·.promote r f)
  have k2 := setWaits_lanes (promotedEntry s h f r) h []
  refine ⟨?_, k2.tentative.trans (congrArg (· - 1) k.tentative), k2.occupancy.trans k.occupancy⟩
  rw [k2.slots]
  refine (smap_get_put _ _ _ _).trans ((if_pos rfl).trans ?_)
  have hbk : (s.modifyEntry h (·.promote r f)).bucket r.insideKey = s.bucket r.insideKey := by
    simp only [State.bucket, k.works.param]
  rw [hbk]

end Sys2Proof.SessionTable

/-! What an accepted PUT hands on (R63, R92, R93, R158, R174), and the statement about a PUT that finds an entry. -/

namespace Sys2Proof.SessionTable

open Sys2Proof Sys2Proof.Machine Sys2Proof.Laws

variable {s t u : State}

/-! ## The need of an accepted PUT (R90 to R92) -/

/-- R92: the Mirror Engine's fields of an entry whose declaration a new one overtakes, queued in a lane. -/
def overtakenPart (m : MirrorPart) (ln : Lane) : MirrorPart :=
  { m with
    peer := if m.peer = .current then .behind else m.peer
    inflight := m.inflight.map (fun i => { i with note := .superseded })
    walk := m.walk && !(m.lane.isSome && m.inflight.isNone)
    queued := some .declare, lane := some ln }

/-- R91: the lane in which the need of a new declaration stands. -/
def needLane (s : State) (m : MirrorPart) (l : LivePart) : Lane :=
  if l.marked = true ∨ s.role.phase = .quiesce ∨ m.lane = some .urgent then .urgent else .normal

theorem laneOf_of_live {h : Nat} {e : Entry} {d : Declared} {m : MirrorPart} {l : LivePart}
    (he : s.entry? h = some (e.withLive d m l)) : s.laneOf h = m.lane := by
  simp [State.laneOf, he, Entry.mirror?, Entry.withLive]

theorem queuedOf_of_live {h : Nat} {e : Entry} {d : Declared} {m : MirrorPart} {l : LivePart}
    (he : s.entry? h = some (e.withLive d m l)) : s.queuedOf h = m.queued := by
  simp [State.queuedOf, he, Entry.mirror?, Entry.withLive]

theorem isMarked_of_live {h : Nat} {e : Entry} {d : Declared} {m : MirrorPart} {l : LivePart}
    (he : s.entry? h = some (e.withLive d m l)) : s.isMarked h = l.marked := by
  simp [State.isMarked, he, Entry.marked, Entry.live?, Entry.withLive]

theorem wantsUrgent_of_live {h : Nat} {e : Entry} {d : Declared} {m : MirrorPart} {l : LivePart}
    (he : s.entry? h = some (e.withLive d m l)) : s.wantsUrgent h = decide (l.marked = true ∨ s.role.phase = .quiesce) := by
  rw [State.wantsUrgent, isMarked_of_live he, Bool.decide_or, Bool.decide_eq_true]
  rfl

theorem lanePlace_live {h : Nat} {e : Entry} {d : Declared} {m : MirrorPart} {l : LivePart}
    (he : s.entry? h = some (e.withLive d m l)) (ln : Lane) (b : Bool) (k : RecKind) :
    (s.lanePlace h ln b k).entry? h = some (e.withLive d { m with lane := some ln, queued := some k } l) := by
  rw [lanePlace_self, he]; rfl

/-- R90: a DECLARE need outranks a REFRESH, and equals a DECLARE. -/
theorem declare_merge {q : Option RecKind} (hq : q ≠ some .retire) : RecKind.merge .declare q = .declare := by
  cases q with
  | none => rfl
  | some k => cases k <;> [rfl; rfl; exact absurd rfl hq]

/-- R90, R91: a DECLARE need of a LIVE entry whose lane and queued kind agree. -/
theorem raiseNeed_declare {h : Nat} {e : Entry} {d : Declared} {m : MirrorPart} {l : LivePart}
    (he : s.entry? h = some (e.withLive d m l)) (hq : m.queued ≠ some .retire) :
    (s.raiseNeed h .declare).entry? h =
      some (e.withLive d { m with lane := some (needLane s m l), queued := some .declare } l) := by
  have hw := wantsUrgent_of_live he
  have hset : m.lane = some (needLane s m l) → (s.setQueued h .declare).entry? h =
      some (e.withLive d { m with lane := some (needLane s m l), queued := some .declare } l) := fun hl => by
    rw [setQueued_self, he, ← hl]; rfl
  unfold State.raiseNeed
  rw [laneOf_of_live he, queuedOf_of_live he, declare_merge hq, hw]
  cases hl : m.lane with
  | none =>
    rw [lanePlace_live he]
    simp [needLane, hl]
  | some ln =>
    cases ln with
    | urgent => exact hset (by rw [hl]; simp [needLane, hl])
    | normal =>
      by_cases hc : l.marked = true ∨ s.role.phase = .quiesce
      · simp only [hc, decide_true, if_true]
        rw [lanePlace_live he]
        simp [needLane, ← or_assoc, hc]
      · simp only [hc, decide_false, Bool.false_eq_true, if_false]
        exact hset (by simp [needLane, hc, hl])

theorem settleWalk_live {h : Nat} {e : Entry} {d : Declared} {m : MirrorPart} {l : LivePart}
    (he : s.entry? h = some (e.withLive d m l)) :
    (s.settleWalk h).entry? h = some (e.withLive d { m with walk := false } l) := by
  have hm : (s.entry? h).bind Entry.mirror? = some m := by simp [he, Entry.mirror?, Entry.withLive]
  unfold State.settleWalk
  rw [hm]
  cases hw : m.walk with
  | false => simp only [hw, Bool.false_eq_true, if_false, he]; rw [← hw]
  | true =>
    simp only [hw, if_true]
    rw [modifyEntry_self]
    exact congrArg (Option.map _) he

/-! ### From a sender that is not the target (R92) -/

theorem unprotect_live {h : Nat} {e : Entry} {d : Declared} {m : MirrorPart} {l : LivePart} (he : s.entry? h = some e)
    (hb : e.body = .live d m l) : (s.modifyEntry h (·.mapLive (fun l => { l with unprotected := false }))).entry? h =
      some (e.withLive d m { l with unprotected := false }) := by
  rw [modifyEntry_self, he]
  simp [Entry.mapLive, hb, Entry.withLive]

theorem putFromOther_untargeted {h : Nat} (ht : s.mirror.target = none) :
    s.putFromOther h = s.modifyEntry h (·.mapLive (fun l => { l with unprotected := false })) := by
  simp [State.putFromOther, ht]

/-- R92: the declaration protected again, and the record inflight overtaken. -/
def overtakenState (s : State) (h : Nat) : State :=
  (s.modifyEntry h (·.mapLive (fun l => { l with unprotected := false }))).modifyEntry h (·.mapMirror MirrorPart.supersede)

/-- R92: a walk DECLARE still in its lane settled too. -/
def supersededState (s : State) (h : Nat) : State :=
  match ((overtakenState s h).entry? h).bind Entry.mirror? with
  | some m => if m.walkInLane then (overtakenState s h).settleWalk h else overtakenState s h
  | none => overtakenState s h

theorem putFromOther_targeted {h : Nat} {g : Fw} (ht : s.mirror.target = some g) :
    s.putFromOther h = (supersededState s h).raiseNeed h .declare := by
  have hn : (s.modifyEntry h (·.mapLive (fun l => { l with unprotected := false }))).mirror.target.isNone = false := by
    rw [modifyEntry_mirror, ht]; rfl
  unfold State.putFromOther
  simp only [hn, Bool.false_eq_true, if_false]
  rfl

theorem overtakenState_lanes (s : State) (h : Nat) : Lanes s (overtakenState s h) :=
  (modifyEntry_lanes s h _).trans (modifyEntry_lanes _ h _)

theorem overtakenState_others (s : State) (h : Nat) : s.othersKept (overtakenState s h) h :=
  othersKept_trans (modifyEntry_others s h _) (modifyEntry_others _ h _)

theorem overtakenState_self {h : Nat} {e : Entry} {d : Declared} {m : MirrorPart} {l : LivePart} (he : s.entry? h = some e)
    (hb : e.body = .live d m l) :
    (overtakenState s h).entry? h = some (e.withLive d m.supersede { l with unprotected := false }) := by
  rw [overtakenState, modifyEntry_self, unprotect_live he hb]; rfl

theorem supersededState_self {h : Nat} {e : Entry} {d : Declared} {m : MirrorPart} {l : LivePart}
    (he : s.entry? h = some e) (hb : e.body = .live d m l) : (supersededState s h).entry? h = some (e.withLive d
      { m.supersede with walk := m.walk && !(m.lane.isSome && m.inflight.isNone) } { l with unprotected := false }) := by
  have hw := overtakenState_self he hb
  have hm : ((overtakenState s h).entry? h).bind Entry.mirror? = some m.supersede := by rw [hw]; rfl
  have hwalk : m.supersede.walkInLane = (m.lane.isSome && m.walk && m.inflight.isNone) := by
    simp [MirrorPart.walkInLane, MirrorPart.supersede]
  unfold supersededState
  simp only [hm, hwalk]
  cases h1 : m.walk with
  | false => simp [hw, MirrorPart.supersede, h1]
  | true =>
    by_cases h2 : m.lane.isSome ∧ m.inflight.isNone
    · simp [settleWalk_live hw, h2.1, h2.2]
    · have h3 : (m.lane.isSome && m.inflight.isNone) = false := 
        Bool.eq_false_of_not_eq_true fun k => h2 (by simpa using k)
      simp [h3, hw, MirrorPart.supersede, h1]

theorem supersededState_lanes (s : State) (h : Nat) : Lanes s (supersededState s h) := by
  unfold supersededState
  split
  · exact .ite ((overtakenState_lanes s h).trans (settleWalk_lanes _ h)) (overtakenState_lanes s h)
  · exact overtakenState_lanes s h

theorem supersededState_others (s : State) (h : Nat) : s.othersKept (supersededState s h) h := by
  unfold supersededState
  split
  · exact othersKept_ite (othersKept_trans (overtakenState_others s h) (settleWalk_others _ h)) (overtakenState_others s h)
  · exact overtakenState_others s h

/-- R92: the entry that an accepted PUT leaves, from a sender other than the target. -/
theorem putFromOther_self {h : Nat} {g : Fw} {e : Entry} {d : Declared} {m : MirrorPart} {l : LivePart}
    (he : s.entry? h = some e) (hb : e.body = .live d m l) (hq : m.queued ≠ some .retire) (ht : s.mirror.target = some g) :
    (s.putFromOther h).entry? h =
      some (e.withLive d (overtakenPart m (needLane s m l)) { l with unprotected := false }) := by
  rw [putFromOther_targeted ht, raiseNeed_declare (supersededState_self he hb) hq]
  simp only [needLane, (supersededState_lanes s h).role]
  rfl

theorem putFromOther_others (s : State) (h : Nat) : s.othersKept (s.putFromOther h) h := by
  cases ht : s.mirror.target with
  | none => rw [putFromOther_untargeted ht]; exact modifyEntry_others s h _
  | some g => rw [putFromOther_targeted ht]; exact othersKept_trans (supersededState_others s h) (raiseNeed_others _ h _)

/-! ### From the target (R93) -/

theorem joinRelease_eq (s : State) (h : Nat) : s.joinRelease h = { s with park := (s.joinRelease h).park } := by
  unfold State.joinRelease
  split
  · split <;> rfl
  · rfl

theorem joinRelease_entry? (s : State) (h g : Nat) : (s.joinRelease h).entry? g = s.entry? g :=
  entry?_of_table (by rw [joinRelease_eq]) g

theorem joinRelease_queue {h : Nat} {e : Entry} (he : s.entry? h = some e) :
    (s.joinRelease h).park.releaseQueue = s.park.releaseQueue ++ (if e.chain = [] then [] else [h]) := by
  by_cases hc : e.chain = [] <;> simp [State.joinRelease, he, hc]

theorem clearMark_of_unmarked {h : Nat} (how : MarkEnd) (hm : s.isMarked h = false) : s.clearMark h how = s := by
  simp [State.clearMark, hm]

theorem clearMark_of_marked {h : Nat} (how : MarkEnd) (hm : s.isMarked h = true) :
    s.clearMark h how = ((s.tallyMark how).unmark h).joinRelease h := by simp [State.clearMark, hm]

theorem tallyMark_table (s : State) (how : MarkEnd) : (s.tallyMark how).table = s.table := by cases how <;> rfl

theorem tallyMark_entry? (s : State) (how : MarkEnd) (h : Nat) : (s.tallyMark how).entry? h = s.entry? h :=
  entry?_of_table (by rw [tallyMark_table]) h

theorem tallyMark_isMarked (s : State) (how : MarkEnd) (h : Nat) : (s.tallyMark how).isMarked h = s.isMarked h :=
  isMarked_of_same (tallyMark_entry? s how h)

theorem tallyMark_mirror (s : State) (how : MarkEnd) : (s.tallyMark how).mirror = s.mirror := by cases how <;> rfl

theorem tallyMark_park (s : State) (how : MarkEnd) : (s.tallyMark how).park = s.park := by cases how <;> rfl

/-- R155: of the entry at the handle a cleared mark moves the mark alone. -/
theorem clearMark_self (s : State) (h : Nat) (how : MarkEnd) :
    (s.clearMark h how).entry? h = (s.entry? h).map (·.mapLive (fun l => { l with marked := false })) := by
  cases hm : s.isMarked h with
  | false => rw [clearMark_of_unmarked how hm, ← unmark_self, unmark_of_unmarked hm]
  | true =>
    rw [clearMark_of_marked how hm, joinRelease_entry?, unmark_self, tallyMark_entry?]

theorem clearMark_others (s : State) (h : Nat) (how : MarkEnd) : s.othersKept (s.clearMark h how) h := by
  cases hm : s.isMarked h with
  | false => rw [clearMark_of_unmarked how hm]; exact othersKept_refl s h
  | true =>
    rw [clearMark_of_marked how hm, joinRelease_eq]
    exact othersKept_trans (fun g _ => tallyMark_entry? s how g) (unmark_others _ h)

theorem clearMark_mirror (s : State) (h : Nat) (how : MarkEnd) : (s.clearMark h how).mirror = s.mirror := by
  cases hm : s.isMarked h with
  | false => rw [clearMark_of_unmarked how hm]
  | true =>
    rw [clearMark_of_marked how hm, joinRelease_eq]
    exact (unmark_mirror _ h).trans (tallyMark_mirror s how)

theorem clearMark_role_of_marked {h : Nat} (how : MarkEnd) (hm : s.isMarked h = true) :
    (s.clearMark h how).role = unmarkedRole (s.tallyMark how).role := by
  rw [clearMark_of_marked how hm, joinRelease_eq]
  exact (unmark_role _ h).trans (if_pos ((tallyMark_isMarked s how h).trans hm))

theorem clearMark_events (s : State) (h : Nat) (how : MarkEnd) : (s.clearMark h how).events = s.events := by
  cases hm : s.isMarked h with
  | false => rw [clearMark_of_unmarked how hm]
  | true =>
    rw [clearMark_of_marked how hm, joinRelease_eq]
    exact (unmark_events _ h).trans (by cases how <;> rfl)

theorem clearMark_confirmed_counters (s : State) (h : Nat) : (s.clearMark h .confirmed).counters = s.counters := by
  cases hm : s.isMarked h with
  | false => rw [clearMark_of_unmarked _ hm]
  | true =>
    rw [clearMark_of_marked _ hm, joinRelease_eq]
    exact unmark_counters _ h

/-- R171: the entry joins the Release Queue with a chain to release. -/
theorem clearMark_queue {h : Nat} {e : Entry} (how : MarkEnd) (he : s.entry? h = some e) (hm : e.marked = true) :
    (s.clearMark h how).park.releaseQueue = s.park.releaseQueue ++ (if e.chain = [] then [] else [h]) := by
  have hc : (e.mapLive (fun l => { l with marked := false })).chain = e.chain := by
    cases hb : e.body <;> simp [Entry.mapLive, Entry.chain, Entry.live?, hb]
  have hu : ((s.tallyMark how).unmark h).entry? h = some (e.mapLive (fun l => { l with marked := false })) := by
    rw [unmark_self, tallyMark_entry?, he]; rfl
  rw [clearMark_of_marked how ((isMarked_of_entry he).trans hm), joinRelease_queue hu, hc, unmark_park, tallyMark_park]

/-- R93: what the target holds already: the entry owes nothing and is CURRENT, its mark not yet looked at. -/
def ownedState (s : State) (h : Nat) : State :=
  (s.unqueue h).modifyEntry h (fun e => (e.mapLive (fun l => { l with unprotected := false })).mapMirror
    (fun m => { m with peer := .current, inflight := m.inflight.map (fun i => { i with note := .owned }) }))

/-- R93: the Mirror Engine's fields of an entry that the target declares. -/
def ownedPart (m : MirrorPart) : MirrorPart :=
  { m with peer := .current, lane := none, queued := none, inflight := m.inflight.map (fun i => { i with note := .owned }) }

theorem putFromTarget_eq (s : State) (h : Nat) : s.putFromTarget h = (ownedState s h).clearMark h .confirmed := rfl

theorem ownedState_self {h : Nat} {e : Entry} {d : Declared} {m : MirrorPart} {l : LivePart} (he : s.entry? h = some e)
    (hb : e.body = .live d m l) :
    (ownedState s h).entry? h = some (e.withLive d (ownedPart m) { l with unprotected := false }) := by
  rw [ownedState, modifyEntry_self, unqueue_self, he]
  simp [Entry.mapMirror, Entry.mapLive, hb, Entry.withLive, ownedPart]

theorem ownedState_lanes (s : State) (h : Nat) : Lanes s (ownedState s h) :=
  (unqueue_lanes s h).trans (modifyEntry_lanes _ h _)

theorem ownedState_mirror (s : State) (h : Nat) : (ownedState s h).mirror = s.mirror.outOfLanes h := by
  rw [ownedState, modifyEntry_mirror]
  exact modifyEntry_mirror { s with mirror := s.mirror.outOfLanes h } h _

theorem putFromTarget_others (s : State) (h : Nat) : s.othersKept (s.putFromTarget h) h :=
  othersKept_trans (othersKept_trans (unqueue_others s h) (modifyEntry_others _ h _)) (clearMark_others _ h _)

theorem putFromTarget_self {h : Nat} {e : Entry} {d : Declared} {m : MirrorPart} {l : LivePart} (he : s.entry? h = some e)
    (hb : e.body = .live d m l) : (s.putFromTarget h).entry? h =
      some (e.withLive d (ownedPart m) { l with unprotected := false, marked := false }) := by
  rw [putFromTarget_eq, clearMark_self, ownedState_self he hb]; rfl

theorem putFromTarget_unqueued (s : State) (h : Nat) :
    h ∉ (s.putFromTarget h).mirror.urgent ∧ h ∉ (s.putFromTarget h).mirror.normal := by
  rw [putFromTarget_eq, clearMark_mirror, ownedState_mirror]
  simp [Mirror.outOfLanes]

/-! ## Marked again (R158, R174) -/

/-- R158: the entry marked again and tallied, before its DECLARE is moved. -/
def markedAgain (s : State) (h : Nat) : State :=
  let w := s.setMark h
  { w with role := { w.role with record := { w.role.record with reMarked := satInc w.role.record.reMarked 65535 } } }

theorem reMark_of_unmarked {h : Nat} (hp : s.phase h = .live) (hm : s.isMarked h = false) :
    s.reMark h = ((markedAgain s h).toUrgentTail h).rejoinChain h := by
  simp [State.reMark, hp, hm, markedAgain]

theorem reMark_of_marked {h : Nat} (hm : s.isMarked h = true) : s.reMark h = s := by simp [State.reMark, hm]

theorem setMark_eq (s : State) (h : Nat) : s.setMark h =
    { s with role := { s.role with marked := s.role.marked + 1 }, table := (s.setMark h).table } := by
  unfold State.setMark
  rw [modifyEntry_onlyTable]

theorem setMark_self (s : State) (h : Nat) : (s.setMark h).entry? h =
    (s.entry? h).map (·.mapLive (fun l => { l with marked := true })) :=
  modifyEntry_self { s with role := _ } h _

theorem markedAgain_role (s : State) (h : Nat) : (markedAgain s h).role = { s.role with
    marked := s.role.marked + 1
    record := { s.role.record with reMarked := satInc s.role.record.reMarked 65535 } } := by
  unfold markedAgain
  rw [setMark_eq]

theorem markedAgain_park (s : State) (h : Nat) : (markedAgain s h).park = s.park := by
  unfold markedAgain
  rw [setMark_eq]

theorem markedAgain_counters (s : State) (h : Nat) : (markedAgain s h).counters = s.counters := by
  unfold markedAgain
  rw [setMark_eq]

theorem markedAgain_others (s : State) (h : Nat) : s.othersKept (markedAgain s h) h :=
  modifyEntry_others { s with role := _ } h _

theorem markedAgain_live {h : Nat} {e : Entry} {d : Declared} {m : MirrorPart} {l : LivePart}
    (he : s.entry? h = some (e.withLive d m l)) :
    (markedAgain s h).entry? h = some (e.withLive d m { l with marked := true }) :=
  (setMark_self s h).trans (by rw [he]; rfl)

theorem toUrgentTail_of_queued {h : Nat} {k : RecKind} (hq : s.queuedOf h = some k) :
    s.toUrgentTail h = s.lanePlace h .urgent false k := by simp [State.toUrgentTail, hq]

theorem toUrgentHead_of_queued {h : Nat} {k : RecKind} (hq : s.queuedOf h = some k) :
    s.toUrgentHead h = s.lanePlace h .urgent true k := by simp [State.toUrgentHead, hq]

theorem lanePlace_mirror (s : State) (h : Nat) (ln : Lane) (b : Bool) (k : RecKind) :
    (s.lanePlace h ln b k).mirror = (s.mirror.outOfLanes h).intoLane h ln b :=
  modifyEntry_mirror { s with mirror := (s.mirror.outOfLanes h).intoLane h ln b } h _

/-- R174: the chain begins anew, out of the Release Queue. -/
def rejoinedState (s : State) (h : Nat) : State :=
  (s.leaveRelease h).modifyEntry h (·.mapLive (fun l => { l with chainAge := 0 }))

theorem rejoinChain_of_empty {h : Nat} {e : Entry} (he : s.entry? h = some e) (hc : e.chain = []) : s.rejoinChain h = s := by
  simp [State.rejoinChain, he, hc]

theorem rejoinChain_of_chain {h : Nat} {e : Entry} (he : s.entry? h = some e) (hc : e.chain ≠ []) :
    s.rejoinChain h = (rejoinedState s h).toUrgentHead h := by
  simp [State.rejoinChain, he, hc, rejoinedState]

theorem rejoinedState_live {h : Nat} {e : Entry} {d : Declared} {m : MirrorPart} {l : LivePart}
    (he : s.entry? h = some (e.withLive d m l)) :
    (rejoinedState s h).entry? h = some (e.withLive d m { l with chainAge := 0 }) :=
  (modifyEntry_self (s.leaveRelease h) h _).trans (by rw [show (s.leaveRelease h).entry? h = s.entry? h from rfl, he]; rfl)

theorem rejoinChain_role_counters (s : State) (h : Nat) :
    (s.rejoinChain h).role = s.role ∧ (s.rejoinChain h).counters = s.counters ∧ s.othersKept (s.rejoinChain h) h := by
  unfold State.rejoinChain
  split
  · split
    · exact ⟨rfl, rfl, othersKept_refl s h⟩
    · have k1 := modifyEntry_lanes (s.leaveRelease h) h (·.mapLive (fun l => { l with chainAge := 0 }))
      have k2 := k1.trans (toUrgentHead_lanes _ h)
      exact ⟨k2.role, k2.counters,
        othersKept_trans (modifyEntry_others (s.leaveRelease h) h _) (toUrgentHead_others _ h)⟩
  · exact ⟨rfl, rfl, othersKept_refl s h⟩

/-- R158: a mark set again leaves the other entries and the counters. -/
theorem reMark_others (s : State) (h : Nat) : s.othersKept (s.reMark h) h ∧ (s.reMark h).counters = s.counters := by
  unfold State.reMark
  split
  · obtain ⟨-, k2, k3⟩ := rejoinChain_role_counters ((markedAgain s h).toUrgentTail h) h
    exact ⟨othersKept_trans (othersKept_trans (markedAgain_others s h) (toUrgentTail_others _ h)) k3,
      k2.trans ((toUrgentTail_lanes _ h).counters.trans (markedAgain_counters s h))⟩
  · exact ⟨othersKept_refl s h, rfl⟩

/-- R158: the state in which the entry is marked again and its DECLARE stands at the tail of URGENT. -/
theorem tailState {h : Nat} {e : Entry} {d : Declared} {m : MirrorPart} {l : LivePart} {k : RecKind}
    (he : s.entry? h = some (e.withLive d m l)) (hq : m.queued = some k) :
    (markedAgain s h).toUrgentTail h = (markedAgain s h).lanePlace h .urgent false k :=
  toUrgentTail_of_queued ((queuedOf_of_live (markedAgain_live he)).trans hq)

theorem reMark_role {h : Nat} (hp : s.phase h = .live) (hm : s.isMarked h = false) : (s.reMark h).role = { s.role with
    marked := s.role.marked + 1
    record := { s.role.record with reMarked := satInc s.role.record.reMarked 65535 } } := by
  rw [reMark_of_unmarked hp hm, (rejoinChain_role_counters _ h).1, (toUrgentTail_lanes _ h).role, markedAgain_role]

/-- R158: an entry without a chain, marked again. -/
theorem reMark_unchained {h : Nat} {e : Entry} {d : Declared} {m : MirrorPart} {l : LivePart} {k : RecKind}
    (he : s.entry? h = some (e.withLive d m l)) (hq : m.queued = some k) (hm : l.marked = false) (hc : l.chain = []) :
    (s.reMark h).entry? h =
        some (e.withLive d { m with lane := some .urgent, queued := some k } { l with marked := true }) ∧
      (s.reMark h).mirror.urgent.getLast? = some h ∧ (s.reMark h).park = s.park := by
  have hlive := lanePlace_live (markedAgain_live he) .urgent false k
  have hr : s.reMark h = (markedAgain s h).lanePlace h .urgent false k := by
    rw [reMark_of_unmarked ((phase_of_entry he).trans rfl) ((isMarked_of_live he).trans hm), tailState he hq]
    exact rejoinChain_of_empty hlive hc
  rw [hr]
  refine ⟨hlive, ?_, (lanePlace_lanes _ h _ _ _).park.trans (markedAgain_park s h)⟩
  rw [lanePlace_mirror]
  simp [Mirror.intoLane]

/-- R158, R174: an entry with a chain, marked again. -/
theorem reMark_chained {h : Nat} {e : Entry} {d : Declared} {m : MirrorPart} {l : LivePart} {k : RecKind}
    (he : s.entry? h = some (e.withLive d m l)) (hq : m.queued = some k) (hm : l.marked = false) (hc : l.chain ≠ []) :
    (s.reMark h).entry? h =
        some (e.withLive d { m with lane := some .urgent, queued := some k } { l with marked := true, chainAge := 0 }) ∧
      (s.reMark h).mirror.urgent.head? = some h ∧
      (s.reMark h).park = { s.park with releaseQueue := s.park.releaseQueue.filter (· != h) } := by
  let v := (markedAgain s h).lanePlace h .urgent false k
  have hlive : v.entry? h = some _ := lanePlace_live (markedAgain_live he) .urgent false k
  have hre := rejoinedState_live hlive
  have hr : s.reMark h = (rejoinedState v h).lanePlace h .urgent true k := by
    rw [reMark_of_unmarked ((phase_of_entry he).trans rfl) ((isMarked_of_live he).trans hm), tailState he hq]
    exact (rejoinChain_of_chain hlive hc).trans (toUrgentHead_of_queued (queuedOf_of_live hre))
  rw [hr]
  refine ⟨lanePlace_live hre .urgent true k, ?_, ?_⟩
  · rw [lanePlace_mirror]
    rfl
  · have hpark : v.park = s.park := (lanePlace_lanes _ h _ _ _).park.trans (markedAgain_park s h)
    rw [(lanePlace_lanes _ h _ _ _).park, rejoinedState, modifyEntry_park, State.leaveRelease, hpark]

/-! ## Handed on (R63) -/

/-- R48, R157: the sender is the late source, not the active firewall. -/
theorem isLateSource_of {f : Fw} (h2 : s.role.source = some f) (h3 : s.role.kind = some .planned)
    (h4 : s.role.phase = .transfer ∨ s.role.phase = .settle) (h5 : s.role.lateWindow.isRunning = true) :
    s.isLateSource f = true := by
  rcases h4 with h4 | h4 <;> simp [State.isLateSource, State.inCutover, h2, h3, h4, h5]

/-- R63: a PUT handed to the Mirror Engine, before the mark is looked at. -/
def handedPut (s : State) (f : Fw) (h : Nat) : State :=
  if (s.inc .declAccepted).mirror.target = some f then (s.inc .declAccepted).putFromTarget h
  else (s.inc .declAccepted).putFromOther h

theorem handOnPut_eq (s : State) (f : Fw) (h : Nat) : s.handOnPut f h =
    if (s.isLateSource f && s.role.active != f) = true then (handedPut s f h).reMark h else handedPut s f h := rfl

theorem handOnPut_of_active {f : Fw} (h : Nat) (ha : s.role.active = f) : s.handOnPut f h = handedPut s f h := by
  rw [handOnPut_eq, if_neg (by simp [ha])]

theorem handOnPut_of_late {f : Fw} (h : Nat) (hl : s.isLateSource f = true) (ha : s.role.active ≠ f) :
    s.handOnPut f h = (handedPut s f h).reMark h := by
  rw [handOnPut_eq, if_pos (by simp [hl, ha])]

theorem other_ne (f : Fw) : f.other ≠ f := by cases f <;> decide

theorem handedPut_of_target {f : Fw} (h : Nat) (ht : s.mirror.target = some f) :
    handedPut s f h = (s.inc .declAccepted).putFromTarget h := if_pos ht

theorem handedPut_of_other {f : Fw} (h : Nat) (ht : s.mirror.target ≠ some f) :
    handedPut s f h = (s.inc .declAccepted).putFromOther h := if_neg ht

theorem handedPut_others (s : State) (f : Fw) (h : Nat) :
    s.othersKept (handedPut s f h) h ∧ (handedPut s f h).counters = (s.inc .declAccepted).counters := by
  by_cases ht : s.mirror.target = some f
  · rw [handedPut_of_target h ht]
    exact ⟨putFromTarget_others (s.inc .declAccepted) h,
      (clearMark_confirmed_counters _ h).trans (ownedState_lanes _ h).counters⟩
  · rw [handedPut_of_other h ht]
    exact ⟨putFromOther_others (s.inc .declAccepted) h, (putFromOther_lanes _ h).counters⟩

/-- R63: whatever is handed on, no other entry moves and the PUT is counted once. -/
theorem handOnPut_others (s : State) (f : Fw) (h : Nat) : s.othersKept (s.handOnPut f h) h ∧
    (s.handOnPut f h).count .declAccepted = min (s.count .declAccepted + 1) Config.counterMax := by
  obtain ⟨k1, k2⟩ := handedPut_others s f h
  obtain ⟨k3, k4⟩ := reMark_others (handedPut s f h) h
  have hc : (s.handOnPut f h).counters = (s.inc .declAccepted).counters := by
    rw [handOnPut_eq]
    split
    · exact k4.trans k2
    · exact k2
  refine ⟨?_, ?_⟩
  · rw [handOnPut_eq]
    exact othersKept_ite (othersKept_trans k1 k3) k1
  · refine Eq.trans ?_ ((count_inc s .declAccepted .declAccepted).trans (if_pos rfl))
    simp only [State.count, hc]

/-- R92: the entry that a PUT of a sender beside the target leaves, before the mark is looked at. -/
theorem handedPut_other_self {f : Fw} {h : Nat} {e : Entry} {d : Declared} {m : MirrorPart} {l : LivePart}
    (he : s.entry? h = some e) (hb : e.body = .live d m l) (hq : m.queued ≠ some .retire)
    (ht : s.mirror.target = some f.other) : (handedPut s f h).entry? h =
      some (e.withLive d (overtakenPart m (needLane s m l)) { l with unprotected := false }) := by
  have hne : s.mirror.target ≠ some f := by rw [ht]; exact fun k => other_ne f (Option.some.inj k)
  rw [handedPut_of_other h hne]
  exact putFromOther_self (s := s.inc .declAccepted) he hb hq ht

theorem handedPut_other_lanes {f : Fw} (h : Nat) (ht : s.mirror.target = some f.other) :
    Lanes (s.inc .declAccepted) (handedPut s f h) := by
  have hne : s.mirror.target ≠ some f := by rw [ht]; exact fun k => other_ne f (Option.some.inj k)
  rw [handedPut_of_other h hne]
  exact putFromOther_lanes _ h

/-- R93, R155: what clearing the mark of an entry that the target declares does to the roles and the Release Queue. -/
theorem putFromTarget_marked {h : Nat} {e : Entry} {d : Declared} {m : MirrorPart} {l : LivePart} (he : s.entry? h = some e)
    (hb : e.body = .live d m l) (hm : l.marked = true) :
    (s.putFromTarget h).role.marked = s.role.marked - 1 ∧
      (s.putFromTarget h).role.record.confirmed = min (s.role.record.confirmed + 1) 65535 ∧
      (s.putFromTarget h).park.releaseQueue = s.park.releaseQueue ++ (if l.chain = [] then [] else [h]) := by
  have ho := ownedState_self he hb
  have k := ownedState_lanes s h
  refine ⟨?_, ?_, ?_⟩
  · rw [putFromTarget_eq, clearMark_role_of_marked _ ((isMarked_of_live ho).trans hm), unmarkedRole, ← k.role]
    split <;> rfl
  · rw [putFromTarget_eq, clearMark_role_of_marked _ ((isMarked_of_live ho).trans hm), unmarkedRole, ← k.role]
    split <;> rfl
  · exact (clearMark_queue _ ho hm).trans (by rw [k.park]; rfl)

theorem putFromTarget_unmarked {h : Nat} {e : Entry} {d : Declared} {m : MirrorPart} {l : LivePart} (he : s.entry? h = some e)
    (hb : e.body = .live d m l) (hm : l.marked = false) :
    (s.putFromTarget h).role = s.role ∧ (s.putFromTarget h).park = s.park := by
  have k := ownedState_lanes s h
  rw [putFromTarget_eq, clearMark_of_unmarked _ ((isMarked_of_live (ownedState_self he hb)).trans hm)]
  exact ⟨k.role, k.park⟩

/-- Settles O25: the replacement and the remap of the LIVE entry, the promotion, then by sender what is handed on. -/
theorem putUpdatesTheEntryItFinds : Obligations.PutUpdatesTheEntryItFinds := by
  refine ⟨fun s f r h e d m l hl he hb hk => ?_, fun s f r h e d m l hs hl he hb hk => ⟨fun hc => ?_,
    fun h1 h2 h3 h4 => ?_, fun h1 h2 h3 h4 => ?_, fun g y h1 h2 h3 hy => ?_⟩, fun s f r h e h1 h2 he hb hw hbl => ?_,
    fun s f h e d m l he hb hmq hq => ?_⟩
  · refine (put_replaces hl he hb hk).trans ?_
    cases hr : r.scales with
    | none => rw [map_rescaled_none hr]; rfl
    | some p => rw [rescaled_some hr]; rfl
  · rw [put_of_liveHolder hl he, putReplace_clash hk hc]
  · rw [put_of_liveHolder hl he,
      putReplace_full hk h1 h2 (Bool.eq_false_of_not_eq_true fun k => h4 ((remapRoom_iff h3).mp k))]
  · let ws := s.retiringHolders r.insideKey r.outsideKey
    have k := remapped_lanes s h r f ws
    have hput : s.put f r = .ok (h, remapped s h r f ws) := by
      rw [put_of_liveHolder hl he, putReplace_remaps hk h1 h2 ((remapRoom_iff h3).mpr h4), State.remap, absorb_of_none h3]
      rfl
    refine ⟨_, hput, remapped_onlyTable s h r f ws, remapped_self f ws he hb hk, ?_, ?_, fun g x d' m' bs hx hxb => ?_,
      k.occupancy, k.tentative⟩
    · rw [remapped_slots, if_pos rfl]
    · rw [remapped_slots, if_neg (by omega)]
    · have hg : g ≠ h := fun hgh => by
        rw [hgh, he, Option.some.injEq] at hx
        rw [← hx, hb] at hxb
        cases hxb
      refine ⟨blocksFor h ws g bs, ?_, mem_blocksFor h g ws bs, blocksFor_filter h g ws bs⟩
      rw [remapped_other r f ws hg, hx, Option.map_some, mapBlocks_of_retiring hxb]
  · let ws := s.retiringHolders r.insideKey r.outsideKey
    have hyp : y.phase = .tentative := (phase_of_entry hy).symm.trans (holderIn_phase h3)
    have hg : g ≠ h := fun hgh => by
      rw [hgh, he, Option.some.injEq] at hy
      rw [← hy, phase_of_live hb] at hyp
      cases hyp
    obtain ⟨a1, a2, a3, a4, a5, a6⟩ := absorbed_table (carriedTracking e y r) hs he hy hyp hg
    let v := absorbed s h g (carriedTracking e y r)
    have hv : v.bucket r.outsideKey = s.bucket r.outsideKey := by
      have kw : Works s v := (modifyEntry_lanes s h _).works.trans (freeEntry_works _ g)
      simp only [State.bucket, kw.param]
    have k := remapped_lanes v h r f ws
    have hput : s.put f r = .ok (h, remapped v h r f ws) := by
      rw [put_of_liveHolder hl he, putReplace_remaps hk h1 h2 (remapRoom_of_tentative h3), State.remap,
        absorb_of_holder h3 hy he]
      rfl
    refine ⟨_, _, hput, ?_, remapped_self f ws a2 hb hk, rfl, rfl, rfl, fun x z hx hz => ?_, ?_, ?_,
      k.occupancy.trans a4, k.tentative.trans a5, (k.count _).trans a6⟩
    · rw [remapped_other r f ws hg, a1]; rfl
    · exact congrArg (Option.map (rescaled r)) (carriedTracking_some r hx hz)
    · rw [remapped_slots, if_pos rfl, hv]
    · rw [remapped_slots, if_neg (by omega)]; exact a3
  · obtain ⟨t1, t2, t3⟩ := promoted_table s h f r
    have hp : (promotedEntry s h f r).entry? h = some (e.promote r f) := promotedEntry_self f r he
    refine ⟨_, e.promote r f, put_promotes h1 h2 hb hw, setWaits_self [] hp nofun, promoted_others hbl,
      rfl, rfl, rfl, rfl, rfl, rfl, rfl, rfl, fun hr => ?_, rfl, rfl, rfl, t1, t2, t3, ?_⟩
    · simp [Entry.promote, hr, Tracking.withScales]
    · rw [count_inc, if_pos rfl, (setWaits_lanes _ h _).count]
      exact congrArg (fun n => min (n + 1) Config.counterMax) ((modifyEntry_lanes s h _).count _)
  · obtain ⟨k1, k2⟩ := handOnPut_others s f h
    refine ⟨k1, k2, fun ha ht => ?_, fun ha ht => ?_, fun ha ht => ?_, fun hlate ht hm => ?_, fun hlate ht hm => ?_⟩
    · rw [handOnPut_of_active h ha, handedPut_of_other h (by rw [ht]; nofun), putFromOther_untargeted (s := s.inc _) ht]
      exact unprotect_live (s := s.inc _) he hb
    · rw [handOnPut_of_active h ha]
      exact handedPut_other_self he hb hq ht
    · rw [handOnPut_of_active h ha, handedPut_of_target h ht]
      obtain ⟨u1, u2⟩ := putFromTarget_unqueued (s.inc .declAccepted) h
      exact ⟨putFromTarget_self (s := s.inc _) he hb, u1, u2, putFromTarget_marked (s := s.inc _) he hb,
        putFromTarget_unmarked (s := s.inc _) he hb⟩
    · obtain ⟨hna, h2, h3, h4, h5⟩ := hlate
      have hself := handedPut_other_self (f := f) he hb hq ht
      have hl := handedPut_other_lanes h ht
      have hm' : (handedPut s f h).isMarked h = false := (isMarked_of_live hself).trans hm
      rw [handOnPut_of_late h (isLateSource_of h2 h3 h4 h5) hna,
        reMark_role ((phase_of_entry hself).trans rfl) hm']
      have hrole : (handedPut s f h).role = s.role := hl.role
      have hpark : (handedPut s f h).park = s.park := hl.park
      rw [hrole]
      refine ⟨?_, rfl, rfl, fun hc => ?_, fun hc => ?_⟩
      · by_cases hc : l.chain = []
        · rw [(reMark_unchained hself rfl hm hc).1, if_pos hc]; rfl
        · rw [(reMark_chained hself rfl hm hc).1, if_neg hc]; rfl
      · obtain ⟨-, q1, q2⟩ := reMark_unchained hself rfl hm hc
        exact ⟨q1, q2.trans hpark⟩
      · obtain ⟨-, q1, q2⟩ := reMark_chained hself rfl hm hc
        exact ⟨q1, q2.trans (by rw [hpark])⟩
    · obtain ⟨hna, h2, h3, h4, h5⟩ := hlate
      have hself := handedPut_other_self (f := f) he hb hq ht
      rw [handOnPut_of_late h (isLateSource_of h2 h3 h4 h5) hna, reMark_of_marked ((isMarked_of_live hself).trans hm),
        hself, needLane, if_pos (.inl hm)]
      exact ⟨rfl, (handedPut_other_lanes h ht).role⟩

end Sys2Proof.SessionTable

/-! Every mark cleared (R155, R159), the mirror target taken anew (R88, R140), and the end of SETTLE (R160). -/

namespace Sys2Proof.SessionTable

open Sys2Proof Sys2Proof.Machine Sys2Proof.Laws

variable {s t u : State}

/-! ## Every mark cleared -/

/-- From `s` to `t` marks have been cleared as released: the Mirror Engine and the events stay, of the roles only the phase, the
marked count and the tally of marks released may differ, the phase moves from TRANSFER to SETTLE alone, and nothing is marked. -/
structure MarksOff (s t : State) : Prop where
  mirror : t.mirror = s.mirror
  events : t.events = s.events
  role : t.role = { s.role with
    phase := t.role.phase, marked := t.role.marked, record := { s.role.record with released := t.role.record.released } }
  phase : t.role.phase = s.role.phase ∨ (s.role.phase = .transfer ∧ t.role.phase = .settle)
  marks : ∀ g, s.isMarked g = false → t.isMarked g = false

theorem MarksOff.refl (s : State) : MarksOff s s := ⟨rfl, rfl, rfl, .inl rfl, fun _ => id⟩

theorem MarksOff.trans (h : MarksOff s t) (k : MarksOff t u) : MarksOff s u where
  mirror := k.mirror.trans h.mirror
  events := k.events.trans h.events
  role := by rw [k.role, h.role]
  phase := by
    rcases k.phase with kp | ⟨kp, kq⟩
    · rcases h.phase with hp | ⟨hp, hq⟩
      · exact .inl (kp.trans hp)
      · exact .inr ⟨hp, kp.trans hq⟩
    · rcases h.phase with hp | ⟨-, hq⟩
      · exact .inr ⟨hp.symm.trans kp, kq⟩
      · rw [hq] at kp; cases kp
  marks := fun g hg => k.marks g (h.marks g hg)

theorem unmarkedRole_cases (r : Role) : (unmarkedRole r).phase = r.phase ∨ (r.phase = .transfer ∧ (unmarkedRole r).phase = .settle) := by
  unfold unmarkedRole
  split
  · rename_i h; exact .inr ⟨h.1, rfl⟩
  · exact .inl rfl

theorem unmarkedRole_eq (r : Role) :
    unmarkedRole r = { r with phase := (unmarkedRole r).phase, marked := (unmarkedRole r).marked } := by
  unfold unmarkedRole
  split <;> rfl

theorem marked_mapLive_off (e : Entry) : (e.mapLive (fun l => { l with marked := false })).marked = false := by
  cases hb : e.body <;> simp [Entry.mapLive, Entry.marked, Entry.live?, hb]

/-- R155: a mark cleared leaves no mark at its handle and sets none elsewhere. -/
theorem clearMark_isMarked (s : State) (h : Nat) (how : MarkEnd) (g : Nat) :
    (s.clearMark h how).isMarked g = if g = h then false else s.isMarked g := by
  by_cases hg : g = h
  · subst hg
    rw [if_pos rfl]
    cases he : s.entry? g with
    | none => simp [State.isMarked, clearMark_self, he]
    | some e => simp [State.isMarked, clearMark_self, he, marked_mapLive_off]
  · rw [if_neg hg]
    exact isMarked_of_same (clearMark_others s h how g hg)

theorem clearMark_marksOff (s : State) (h : Nat) : MarksOff s (s.clearMark h .released) := by
  cases hm : s.isMarked h with
  | false => rw [clearMark_of_unmarked _ hm]; exact .refl s
  | true =>
    have hr : (s.clearMark h .released).role = unmarkedRole (s.tallyMark .released).role := clearMark_role_of_marked _ hm
    refine ⟨clearMark_mirror s h _, clearMark_events s h _, ?_, ?_, fun g hg => ?_⟩
    · rw [hr, unmarkedRole_eq]; rfl
    · rw [hr]; exact unmarkedRole_cases _
    · rw [clearMark_isMarked]
      split
      · rfl
      · exact hg

theorem clearAllMarks_marksOff (s : State) : MarksOff s (s.clearAllMarks .released) := by
  have hfold : ∀ (hs : List Nat) (v : State), MarksOff v (hs.foldl (fun t h => t.clearMark h .released) v) := by
    intro hs
    induction hs with
    | nil => exact fun v => .refl v
    | cons h hs ih => exact fun v => (clearMark_marksOff v h).trans (ih _)
  exact hfold _ s

theorem not_marked_of_not_listed {g : Nat} (hg : g ∉ s.markedHandles) : s.isMarked g = false := by
  cases hm : s.isMarked g with
  | false => rfl
  | true =>
    obtain ⟨e, he, -⟩ := entry_of_isMarked hm
    exact absurd (List.mem_filter.mpr ⟨mem_handles he, hm⟩) hg

/-- R155: when every marked handle has been taken, none is marked. -/
theorem clearAllMarks_isMarked (s : State) (how : MarkEnd) (g : Nat) : (s.clearAllMarks how).isMarked g = false := by
  have hfold : ∀ (hs : List Nat) (v : State), (∀ g, g ∉ hs → v.isMarked g = false) →
      ∀ g, (hs.foldl (fun t h => t.clearMark h how) v).isMarked g = false := by
    intro hs
    induction hs with
    | nil => exact fun v hv g => hv g List.not_mem_nil
    | cons h hs ih =>
      refine fun v hv => ih _ (fun g hg => ?_)
      rw [clearMark_isMarked]
      split
      · rfl
      · rename_i hne; exact hv g (fun k => (List.mem_cons.mp k).elim hne hg)
  exact hfold _ s (fun g hg => not_marked_of_not_listed hg) g

/-! ## The mirror target taken anew -/

theorem standby_ne_active {f : Fw} (h : s.standby = some f) : f = s.role.active.other ∧ s.usable f = true := by
  unfold State.standby at h
  split at h
  · rename_i hu; cases h; exact ⟨rfl, hu⟩
  · cases h

/-- R88, R140: the three things a retarget may come to. -/
theorem retarget_cases (s : State) : (s.retarget = s ∧ s.mirror.target = s.standby) ∨
    (∃ f, s.standby = some f ∧ s.retarget = s.walkStart f) ∨ (s.standby = none ∧ s.retarget = s.targetLoss) := by
  unfold State.retarget
  cases hb : s.standby with
  | some f =>
    by_cases ht : s.mirror.target = some f
    · exact .inl ⟨if_pos ht, ht⟩
    · exact .inr (.inl ⟨f, rfl, if_neg ht⟩)
  | none =>
    by_cases ht : s.mirror.target = none
    · exact .inl ⟨if_pos ht, ht⟩
    · exact .inr (.inr ⟨rfl, if_neg ht⟩)

theorem retarget_role (hok : s.tableOk) (hm : ∀ g, s.isMarked g = false) : s.retarget.role = s.role := by
  rcases retarget_cases s with ⟨h, -⟩ | ⟨f, -, h⟩ | ⟨-, h⟩ <;> rw [h]
  · exact walkStart_role_of_unmarked hok hm f
  · exact abandonMirror_role hok hm _ _ _ _

theorem retarget_isMarked (hok : s.tableOk) (hm : ∀ g, s.isMarked g = false) (g : Nat) : s.retarget.isMarked g = false := by
  rcases retarget_cases s with ⟨h, -⟩ | ⟨f, -, h⟩ | ⟨-, h⟩ <;> rw [h]
  · exact hm g
  · exact walkStart_isMarked hok hm f g
  · exact abandonMirror_isMarked hok hm _ _ _ _ g

theorem abandonMirror_event (s : State) (target : Option Fw) (st : MirrorState) (cursor : Nat) (begin : Bool) {ev : EventId}
    (h1 : ev ≠ .tableLevel) (h2 : ev ≠ .parkLevel) : (s.abandonMirror target st cursor begin).event ev = s.event ev := by
  rw [abandonMirror_eq]
  exact (freeAll_frees _ _).events ev h1 h2

theorem retarget_event (s : State) {ev : EventId} (h1 : ev ≠ .tableLevel) (h2 : ev ≠ .parkLevel) :
    s.retarget.event ev = s.event ev := by
  rcases retarget_cases s with ⟨h, -⟩ | ⟨f, -, h⟩ | ⟨-, h⟩ <;> rw [h]
  · refine Eq.trans ?_ (abandonMirror_event s (some f) .walking 0 true h1 h2)
    rw [State.walkStart, event_inc]
    simp only [State.event, sendBatch_events]
  · exact abandonMirror_event s none .idle 16384 false h1 h2

/-- R89, R116: a retarget leaves no STREAMING mirror and no walk at its end, unless it found one that it keeps. -/
theorem retarget_restarts
    (h : (s.mirror.state ≠ .streaming ∧ s.mirror.state ≠ .walking) ∨ s.mirror.target = some s.role.active) :
    s.retarget.mirror.state ≠ .streaming ∧ s.retarget.walkDone = false := by
  rcases retarget_cases s with ⟨hr, ht⟩ | ⟨f, -, hr⟩ | ⟨-, hr⟩ <;> rw [hr]
  · rcases h with ⟨h1, h2⟩ | h
    · exact ⟨h1, walkDone_of_state h2⟩
    · exact absurd (standby_ne_active (ht.symm.trans h)).1 (other_ne _).symm
  · obtain ⟨-, h2, h3, -⟩ := walkStart_mirror s f
    exact ⟨by rw [h2]; nofun, by simp [State.walkDone, h3, Config.handles]⟩
  · obtain ⟨-, h2⟩ := targetLoss_mirror s
    exact ⟨by rw [h2]; nofun, walkDone_of_state (by rw [h2]; nofun)⟩

/-- R89, R148: a standby whose mirror does not stream is not ready, and nothing is pre-empted. -/
theorem preemptTest_of_not_streaming (h : s.mirror.state ≠ .streaming) : s.preemptTest = s := by
  have hr : s.ready = false := by
    unfold State.ready
    split
    · simp [h]
    · rfl
  simp [State.preemptTest, State.mayPreempt, hr]

/-! ## The end of SETTLE -/

/-- R160: the marks cleared and the phase NONE, before the mirror target is taken anew. -/
def settleEnded (s : State) : State :=
  let v := s.clearAllMarks .released
  let w := { v with role := { v.role with lateWindow := .stopped, cutLimit := .stopped, phase := .none } }
  w.raise .cutoverEnd w.endParams

theorem endSettle_eq (s : State) : s.endSettle = (settleEnded s).retarget.preemptTest := rfl

theorem settleEnded_role (s : State) : (settleEnded s).role = { s.role with
    lateWindow := .stopped, cutLimit := .stopped, phase := .none, marked := (settleEnded s).role.marked
    record := { s.role.record with released := (settleEnded s).role.record.released } } := by
  unfold settleEnded
  simp only [(raise_sends _ _ _).role]
  rw [(clearAllMarks_marksOff s).role]

theorem settleEnded_mirror (s : State) : (settleEnded s).mirror = s.mirror :=
  (raise_sends _ _ _).mirror.trans (clearAllMarks_marksOff s).mirror

theorem settleEnded_isMarked (s : State) (g : Nat) : (settleEnded s).isMarked g = false :=
  (isMarked_of_same (raise_entry? _ _ _ g)).trans (clearAllMarks_isMarked s .released g)

theorem settleEnded_tableOk (hs : s.tableOk) : (settleEnded s).tableOk :=
  (keepsTable_of_eq (raise_sends _ _ _).table) ((clearAllMarks_held s .released).table hs)

theorem settleEnded_event (s : State) (ev : EventId) :
    (settleEnded s).event ev = if ev = .cutoverEnd then (s.event .cutoverEnd).next else s.event ev := by
  have he : ∀ d, (s.clearAllMarks .released).event d = s.event d := fun d => by
    simp only [State.event, (clearAllMarks_marksOff s).events]
  unfold settleEnded
  dsimp only
  rw [raise_event]
  split
  · exact congrArg EventState.next (he _)
  · exact he ev

theorem settleEnded_usable (s : State) (f : Fw) : (settleEnded s).usable f = s.usable f := by
  have h : (settleEnded s).health = s.health :=
    (raise_sends _ _ _).health.trans (clearAllMarks_works s .released).health
  simp only [State.usable, State.fw, h]

/-- R116, R160: the tests that end an event, once SETTLE is done and the mirror has nothing to stream or walk on. -/
theorem finish_of_settleDone (hd : s.settleDone = true)
    (h : (s.mirror.state ≠ .streaming ∧ s.mirror.state ≠ .walking) ∨ s.mirror.target = some s.role.active) :
    s.finish = (settleEnded s).retarget := by
  have ha : (settleEnded s).role.active = s.role.active := by rw [settleEnded_role]
  obtain ⟨h1, h2⟩ := retarget_restarts (s := settleEnded s) (by rwa [settleEnded_mirror, ha])
  have he : s.endSettle = (settleEnded s).retarget := by rw [endSettle_eq, preemptTest_of_not_streaming h1]
  simp [State.finish, hd, he, h2]

theorem endedSettle_role (hs : s.tableOk) : (settleEnded s).retarget.role = (settleEnded s).role :=
  retarget_role (settleEnded_tableOk hs) (settleEnded_isMarked s)

theorem endedSettle_isMarked (hs : s.tableOk) (g : Nat) : (settleEnded s).retarget.isMarked g = false :=
  retarget_isMarked (settleEnded_tableOk hs) (settleEnded_isMarked s) g

/-- R210: the ROLE frames that an event sends latch nothing. -/
theorem sendRoleChanges_events (s : State) (ph : CutPhase) (a b : RoleName) :
    (s.sendRoleChanges ph a b).events = s.events := by
  have k : ∀ (v : State) (f : Fw), (v.sendRole f).events = v.events := fun v f => handTx_events v _ _
  unfold State.sendRoleChanges
  dsimp only
  split
  · rw [k]
    split
    · exact k s .a
    · rfl
  · split
    · exact k s .a
    · rfl

end Sys2Proof.SessionTable

/-! A confirm sweep expiry (R101, R107 to R109, R159): ages, timeouts, records put back, and what the stall count leads to. -/

namespace Sys2Proof.SessionTable

open Sys2Proof Sys2Proof.Machine Sys2Proof.Laws

variable {s t u : State}

/-! ## Records put back (R107) -/

theorem Lanes.mirror (h : Lanes s t) : t.mirror = { s.mirror with
    urgent := t.mirror.urgent, normal := t.mirror.normal, walkPending := t.mirror.walkPending } := by rw [h]

/-- R107: the last record of a batch is put back first, so that the first stands at the head. -/
theorem putBack_cons (s : State) (r : BatchRecord) (rs : List BatchRecord) :
    s.putBack (r :: rs) = (s.putBack rs).putBackOne r := by
  simp [State.putBack]

theorem clearInflight_self (s : State) (h : Nat) : (s.clearInflight h).entry? h =
    (s.entry? h).map (·.mapMirror (fun m => { m with inflight := none })) := modifyEntry_self s h _

theorem clearInflight_others (s : State) (h : Nat) : s.othersKept (s.clearInflight h) h := modifyEntry_others s h _

theorem mirrorOf_map (x : Option Entry) (g : MirrorPart → MirrorPart) :
    (x.map (·.mapMirror g)).bind Entry.mirror? = (x.bind Entry.mirror?).map g := by
  cases x with
  | none => rfl
  | some e => exact mirror?_mapMirror e g

theorem putBackOne_of_none {r : BatchRecord} (hm : (s.entry? r.handle).bind Entry.mirror? = none) : s.putBackOne r = s := by
  simp [State.putBackOne, hm]

theorem putBackOne_of_some {r : BatchRecord} {m : MirrorPart} (hm : (s.entry? r.handle).bind Entry.mirror? = some m) :
    s.putBackOne r = (s.clearInflight r.handle).lanePlace r.handle (if s.isMarked r.handle then .urgent else .normal) true
      ((putBackKind m r.kind).merge m.queued) := by
  simp [State.putBackOne, hm]

theorem putBackOne_others (s : State) (r : BatchRecord) : s.othersKept (s.putBackOne r) r.handle := by
  cases hm : (s.entry? r.handle).bind Entry.mirror? with
  | none => rw [putBackOne_of_none hm]; exact othersKept_refl s _
  | some m =>
    rw [putBackOne_of_some hm]
    exact othersKept_trans (clearInflight_others s _) (lanePlace_others _ _ _ _ _)

theorem putBackOne_self {r : BatchRecord} {m : MirrorPart} (hm : (s.entry? r.handle).bind Entry.mirror? = some m) :
    ((s.putBackOne r).entry? r.handle).bind Entry.mirror? = some { m with
      inflight := none, lane := some (if s.isMarked r.handle then .urgent else .normal)
      queued := some ((putBackKind m r.kind).merge m.queued) } := by
  rw [putBackOne_of_some hm, lanePlace_self, clearInflight_self, mirrorOf_map, mirrorOf_map, hm]
  rfl

/-- The record inflight for the entry at a handle. -/
def inflightAt (s : State) (g : Nat) : Option Inflight := ((s.entry? g).bind Entry.mirror?).bind (·.inflight)

/-- R107: putting a record back leaves nothing inflight at its handle, and sets nothing inflight elsewhere. -/
theorem putBackOne_inflight (s : State) (r : BatchRecord) (g : Nat) :
    inflightAt (s.putBackOne r) g = if g = r.handle then none else inflightAt s g := by
  by_cases hg : g = r.handle
  · subst hg
    rw [if_pos rfl, inflightAt]
    cases hm : (s.entry? r.handle).bind Entry.mirror? with
    | none => rw [putBackOne_of_none hm, hm]; rfl
    | some m => rw [putBackOne_self hm]; rfl
  · rw [if_neg hg, inflightAt, putBackOne_others s r g hg]; rfl

theorem putBack_inflight (s : State) (rs : List BatchRecord) (r : BatchRecord) (hr : r ∈ rs) :
    inflightAt (s.putBack rs) r.handle = none := by
  induction rs with
  | nil => cases hr
  | cons x rs ih =>
    rw [putBack_cons, putBackOne_inflight]
    split
    · rfl
    · rename_i hne
      exact ih ((List.mem_cons.mp hr).resolve_left fun k => hne (by rw [k]))

/-- R107: an unmarked entry's record goes to the head of NORMAL. -/
theorem putBackOne_lanes_of_unmarked {r : BatchRecord} {m : MirrorPart} (hm : (s.entry? r.handle).bind Entry.mirror? = some m)
    (hu : s.isMarked r.handle = false) :
    (s.putBackOne r).mirror.normal = r.handle :: s.mirror.normal.filter (· != r.handle) ∧
      (s.putBackOne r).mirror.urgent = s.mirror.urgent.filter (· != r.handle) := by
  rw [putBackOne_of_some hm, hu, lanePlace_mirror, State.clearInflight, modifyEntry_mirror]
  exact ⟨rfl, rfl⟩

/-- Taking one more handle out of a lane. -/
theorem filter_cons_contains (h : Nat) (hs ls : List Nat) :
    (ls.filter (fun g => !hs.contains g)).filter (· != h) = ls.filter (fun g => !(h :: hs).contains g) := by
  rw [List.filter_filter]
  refine List.filter_congr (fun g _ => ?_)
  simp [bne, Bool.not_or, Bool.beq_eq_decide_eq]

/-- R107: the records of distinct unmarked entries put back, by induction on the batch. -/
theorem putBack_putsBack {rs : List BatchRecord} (h : s.canPutBack rs) : s.putsBack (s.putBack rs) rs := by
  induction rs with
  | nil =>
    have hf : ∀ ls : List Nat, ls.filter (fun _ => true) = ls := fun ls => List.filter_eq_self.mpr fun _ _ => rfl
    exact ⟨(hf _).symm, (hf _).symm, fun _ _ => rfl, fun _ hr => absurd hr List.not_mem_nil⟩
  | cons r rs ih =>
    obtain ⟨hn, hall⟩ := h
    obtain ⟨hr, hn⟩ := List.nodup_cons.mp hn
    obtain ⟨ih1, ih2, ih3, ih4⟩ := ih ⟨hn, fun x hx => hall x (List.mem_cons_of_mem r hx)⟩
    obtain ⟨hu, hsome⟩ := hall r List.mem_cons_self
    obtain ⟨m, hm⟩ := Option.isSome_iff_exists.mp hsome
    have hkept := ih3 r.handle hr
    have hm' : ((s.putBack rs).entry? r.handle).bind Entry.mirror? = some m := by rw [hkept, hm]
    have hu' : (s.putBack rs).isMarked r.handle = false := (isMarked_of_same hkept).trans hu
    obtain ⟨h1, h2⟩ := putBackOne_lanes_of_unmarked hm' hu'
    have hfr : (rs.map (·.handle)).filter (· != r.handle) = rs.map (·.handle) :=
      List.filter_eq_self.mpr fun x hx => bne_iff_ne.mpr (ne_of_mem_of_not_mem hx hr)
    rw [putBack_cons]
    refine ⟨?_, ?_, fun g hg => ?_, fun x hx m' hm2 => ?_⟩
    · rw [h1, ih1, List.filter_append, hfr, filter_cons_contains]; rfl
    · rw [h2, ih2, filter_cons_contains]; rfl
    · obtain ⟨g1, g2⟩ := List.ne_and_not_mem_of_not_mem_cons hg
      rw [putBackOne_others _ r g g1, ih3 g g2]
    · rcases List.mem_cons.mp hx with rfl | hx
      · rw [putBackOne_self hm', hu']
        rw [hm, Option.some.injEq] at hm2
        subst hm2
        rfl
      · have hne : x.handle ≠ r.handle := ne_of_mem_of_not_mem (List.mem_map_of_mem hx) hr
        rw [putBackOne_others _ r _ hne]
        exact ih4 x hx m' hm2

/-! ## The sweep, up to the stall test -/

/-- R101: the state after a confirm sweep in which no batch is due. -/
def agedBatches (s : State) : State :=
  { s with
    sweepers := { s.sweepers with confirm := s.param .confirmSweep }
    mirror := { s.mirror with slots := s.mirror.slots.map (fun b => { b with age := b.age + 1 }) } }

theorem confirmSweep_of_young (h : ∀ b ∈ s.mirror.slots, b.age < 2) : s.confirmSweep = agedBatches s := by
  have h1 : s.mirror.slots.filter (fun b => decide (2 ≤ b.age)) = [] :=
    List.filter_eq_nil_iff.mpr fun b hb => by simp [h b hb]
  have h2 : s.mirror.slots.filter (fun b => decide (b.age < 2)) = s.mirror.slots :=
    List.filter_eq_self.mpr fun b hb => decide_eq_true (h b hb)
  unfold State.confirmSweep
  rw [h1, h2]
  rfl

/-- R107: the state in which the one batch outstanding has timed out and is counted, its records not yet returned. -/
def timedOut (s : State) : State :=
  State.inc { s with
    sweepers := { s.sweepers with confirm := s.param .confirmSweep }
    mirror := { s.mirror with slots := [], timeouts := satInc s.mirror.timeouts 255 } } .batchTimeouts

/-- R107, R108: the one batch outstanding times out. -/
theorem confirmSweep_of_due {b : Batch} (hb : s.mirror.slots = [b]) (ha : b.age = 2) (hn : b.begin = false) :
    s.confirmSweep = ((timedOut s).returnRecords b.records).stallTest := by
  have h1 : s.mirror.slots.filter (fun x => decide (2 ≤ x.age)) = [b] := by simp [hb, ha]
  have h2 : s.mirror.slots.filter (fun x => decide (x.age < 2)) = [] := by simp [hb, ha]
  unfold State.confirmSweep
  rw [h1, h2]
  simp only [List.any_cons, List.any_nil, hn, Bool.or_false, Bool.false_and, Bool.false_eq_true, if_false,
    List.isEmpty_cons, List.foldl_cons, List.foldl_nil, State.timeoutOne]
  rfl

theorem returnRecords_of_settle (h : s.role.phase = .settle) (rs : List BatchRecord) :
    s.returnRecords rs = rs.foldl (fun t r => t.clearInflight r.handle) s := if_pos h

theorem returnRecords_of_open (h : s.role.phase ≠ .settle) (rs : List BatchRecord) : s.returnRecords rs = s.putBack rs :=
  if_neg h

theorem stallTest_of_below (h : s.mirror.timeouts < s.param .stallCount) : s.stallTest = s :=
  if_neg (Nat.not_le.mpr h)

theorem stallTest_of_streaming (h : s.param .stallCount ≤ s.mirror.timeouts) (hm : s.mirror.state = .streaming) :
    s.stallTest = s.stall := by simp [State.stallTest, h, hm]

theorem stallTest_of_pushing (h : s.param .stallCount ≤ s.mirror.timeouts) (hm : s.mirror.state = .pushing) :
    s.stallTest = s.releaseAll := by simp [State.stallTest, h, hm]

/-! ## A STREAMING mirror -/

/-- R108: a mirror with no batch left stalls. -/
def stalledState (s : State) : State :=
  { s with mirror := { s.mirror with state := .stalled, slots := [], restartHold := .running (s.param .confirmSweep) } }

theorem stall_of_empty (h : s.mirror.slots = []) : s.stall =
    (stalledState s).raise .mirrorStalled (be1 (fwCode s.mirror.target) ++ be1 s.mirror.timeouts) := by
  unfold State.stall
  rw [h]
  rfl

/-- An event that leaves a quiet moment, and neither the roles nor health moved, ends there. -/
theorem asEvent_finish_of_quiet {body : State → State} (hm : (body s).mirror.state ≠ .walking) (hp : s.role.phase ≠ .settle)
    (hr : (body s).role = s.role) (hh : (body s).health = s.health) : s.asEvent (fun v => (body v).finish) = body s := by
  have hf : (body s).finish = body s := finish_of_quiet ⟨hm, by rw [hr]; exact hp⟩
  have := asEvent_unmoved (s := s) (body := fun v => (body v).finish) (by rw [hf, hr]) (by rw [hf, hr]) (by rw [hf, hh])
  rw [this, hf]

/-- R107: a batch of a mirror that streams, in a phase other than SETTLE, its records put back. -/
def returned (s : State) (b : Batch) : State := (timedOut s).putBack b.records

theorem returned_lanes (s : State) (b : Batch) : Lanes (timedOut s) (returned s b) := putBack_lanes _ _

theorem returned_count (s : State) (b : Batch) :
    (returned s b).count .batchTimeouts = min (s.count .batchTimeouts + 1) Config.counterMax :=
  ((returned_lanes s b).count _).trans ((count_inc _ _ _).trans (if_pos rfl))

theorem returned_putsBack {b : Batch} (h : s.canPutBack b.records) : s.putsBack (returned s b) b.records :=
  putBack_putsBack (s := timedOut s) h

theorem confirmSweep_of_open {b : Batch} (hb : s.mirror.slots = [b]) (ha : b.age = 2) (hn : b.begin = false)
    (hp : s.role.phase ≠ .settle) : s.confirmSweep = (returned s b).stallTest := by
  rw [confirmSweep_of_due hb ha hn, returnRecords_of_open (s := timedOut s) hp]
  rfl

/-! ## A PUSHING mirror -/

/-- R159: the marks released and TRANSFER over. -/
theorem releaseAll_of_transfer (hp : s.role.phase = .transfer) : ∃ v : State, s.releaseAll = v ∧ MarksOff s v ∧
    (∀ g, v.isMarked g = false) ∧ v.role.phase = .settle := by
  have k := clearAllMarks_marksOff s
  have hm := clearAllMarks_isMarked s .released
  refine ⟨_, rfl, ?_⟩
  unfold State.releaseAll
  dsimp only
  split
  · exact ⟨⟨k.mirror, k.events, by rw [k.role], .inr ⟨hp, rfl⟩, k.marks⟩, hm, rfl⟩
  · rename_i hne
    exact ⟨k, hm, (k.phase.resolve_left fun h => hne (h.trans hp)).2⟩

theorem clearInflights_lanes (rs : List BatchRecord) (s : State) :
    Lanes s (rs.foldl (fun t r => t.clearInflight r.handle) s) := .foldl (fun v r => clearInflight_lanes v r.handle) rs s

theorem clearInflights_mirror (rs : List BatchRecord) (s : State) :
    (rs.foldl (fun t r => t.clearInflight r.handle) s).mirror = s.mirror := by
  induction rs generalizing s with
  | nil => rfl
  | cons r rs ih => exact (ih _).trans (modifyEntry_mirror s r.handle _)

/-- R109: of an entry whose records are abandoned nothing is inflight; every other entry stays. -/
theorem clearInflights_entry (rs : List BatchRecord) (s : State) (g : Nat) :
    (rs.foldl (fun t r => t.clearInflight r.handle) s).entry? g = if g ∈ rs.map (·.handle) then
      (s.entry? g).map (·.mapMirror (fun m => { m with inflight := none })) else s.entry? g := by
  induction rs generalizing s with
  | nil => rfl
  | cons r rs ih =>
    rw [List.foldl_cons, ih, List.map_cons]
    by_cases hg : g = r.handle
    · subst hg
      have htwice : ∀ e : Entry, (e.mapMirror (fun m => { m with inflight := none })).mapMirror
          (fun m => { m with inflight := none }) = e.mapMirror (fun m => { m with inflight := none }) := fun e => by
        obtain ⟨fam, pr, o, i, c, n, x, b⟩ := e
        cases b <;> rfl
      rw [clearInflight_self, if_pos List.mem_cons_self, Option.map_map]
      split
      · exact Option.map_congr fun e _ => htwice e
      · rfl
    · rw [clearInflight_others s _ g hg]
      simp only [List.mem_cons, hg, false_or]

theorem isMarked_of_sends (h : Sends s t) (g : Nat) : t.isMarked g = s.isMarked g :=
  isMarked_of_same (entry?_of_table (congrArg Table.entries h.table) g)

/-- R109, R159: what a PUSHING mirror in TRANSFER leaves once the stall count is reached, when the event has ended. -/
theorem finish_of_released (hok : s.tableOk) (hst : s.mirror.state = .pushing) (hp : s.role.phase = .settle)
    (hm : ∀ g, s.isMarked g = false) :
    (∀ g, s.finish.isMarked g = false) ∧ (s.finish.role.phase = .settle ∨ s.finish.role.phase = .none) ∧
      (s.finish.role.phase = .settle → s.finish = s) ∧ s.finish.event .mirrorStalled = s.event .mirrorStalled ∧
      s.finish.role.active = s.role.active := by
  cases hd : s.settleDone with
  | false =>
    rw [finish_of_undone hd (walkDone_of_state (by rw [hst]; nofun))]
    exact ⟨hm, .inl hp, fun _ => rfl, rfl, rfl⟩
  | true =>
    rw [finish_of_settleDone hd (.inl (by rw [hst]; exact ⟨nofun, nofun⟩)), endedSettle_role hok, settleEnded_role]
    refine ⟨endedSettle_isMarked hok, .inr rfl, nofun, ?_, rfl⟩
    rw [retarget_event _ (by decide) (by decide), settleEnded_event]
    rfl

/-! ## The statement -/

/-- Settles O33: by the age of the batch outstanding, then by the state of the mirror and the count of timeouts. -/
theorem confirmSweepAgesAndTimesOut : Obligations.ConfirmSweepAgesAndTimesOut := by
  refine ⟨fun s hq hy => ?_, fun s b hst hp hb ha hn => ?_, fun s b hok hst hp hb ha hn hc => ?_,
    fun s b hst hp hf hb ha hn hc => ?_⟩
  · refine congrArg Host.Outcome.next ((asEvent_finish_of_quiet ?_ hq.2 ?_ ?_).trans (confirmSweep_of_young hy))
    all_goals rw [confirmSweep_of_young hy]
    · exact hq.1
    · rfl
    · rfl
  · have k := returned_lanes s b
    have hkm := k.mirror
    have hsweep := confirmSweep_of_open hb ha hn hp
    have hparam : ∀ p, (returned s b).param p = s.param p := fun p => k.works.param p
    have hto : (returned s b).mirror.timeouts = min (s.mirror.timeouts + 1) 255 := by rw [hkm]; rfl
    have hslots : (returned s b).mirror.slots = [] := by rw [hkm]; rfl
    have hstate : (returned s b).mirror.state = .streaming := by rw [hkm]; exact hst
    have hinf : ∀ r ∈ b.records, inflightAt (returned s b) r.handle = none := fun r hr => putBack_inflight _ _ r hr
    have hev : (returned s b).event .mirrorStalled = s.event .mirrorStalled := k.event _
    by_cases hc : s.param .stallCount ≤ min (s.mirror.timeouts + 1) 255
    · have hs : s.confirmSweep = (stalledState (returned s b)).raise .mirrorStalled
          (be1 (fwCode (returned s b).mirror.target) ++ be1 (returned s b).mirror.timeouts) := by
        rw [hsweep, stallTest_of_streaming (by rw [hparam, hto]; exact hc) hstate, stall_of_empty hslots]
      have ks := raise_sends (stalledState (returned s b)) .mirrorStalled
          (be1 (fwCode (returned s b).mirror.target) ++ be1 (returned s b).mirror.timeouts)
      rw [← hs] at ks
      have he : ∀ g, s.confirmSweep.entry? g = (returned s b).entry? g := fun g => entry?_of_table (by rw [ks.table]; rfl) g
      refine ⟨s.confirmSweep, congrArg Host.Outcome.next (asEvent_finish_of_quiet (by rw [ks.mirror]; nofun) hp
        (ks.role.trans k.role) (ks.health.trans k.works.health)), by rw [ks.mirror]; rfl, by rw [ks.mirror]; exact hto, ?_,
        fun r hr => ?_, fun hcan => ?_, fun _ => ⟨by rw [ks.mirror]; rfl, ?_, ?_⟩, fun hlt => absurd hc (Nat.not_le.mpr hlt)⟩
      · rw [hs, raise_count _ _ _ (by decide)]
        exact returned_count s b
      · rw [he]; exact hinf r hr
      · obtain ⟨p1, p2, p3, p4⟩ := returned_putsBack hcan
        refine ⟨by rw [ks.mirror]; exact p1, by rw [ks.mirror]; exact p2, fun g hg => (he g).trans (p3 g hg), fun r hr m hm => ?_⟩
        rw [he]; exact p4 r hr m hm
      · rw [ks.mirror, ← hparam]; rfl
      · rw [hs, raise_event, if_pos rfl]
        exact congrArg EventState.next hev
    · have hs : s.confirmSweep = returned s b := by
        rw [hsweep, stallTest_of_below (by rw [hparam, hto]; exact Nat.not_le.mp hc)]
      refine ⟨returned s b, congrArg Host.Outcome.next ((asEvent_finish_of_quiet ?_ hp ?_ ?_).trans hs), hslots, hto,
        returned_count s b, hinf, fun hcan => returned_putsBack hcan, fun h => absurd h hc, fun _ => ⟨hstate, hev⟩⟩
      · rw [hs, hstate]; nofun
      · rw [hs]; exact k.role
      · rw [hs]; exact k.works.health
  · have k := returned_lanes s b
    have hkm := k.mirror
    have hp' : (returned s b).role.phase = .transfer := by rw [k.role]; exact hp
    have hst' : (returned s b).mirror.state = .pushing := by rw [hkm]; exact hst
    have hto : (returned s b).mirror.timeouts = min (s.mirror.timeouts + 1) 255 := by rw [hkm]; rfl
    obtain ⟨v, hv, kv, hvm, hvp⟩ := releaseAll_of_transfer hp'
    have hs : s.confirmSweep = v := by
      rw [confirmSweep_of_open hb ha hn (by rw [hp]; nofun),
        stallTest_of_pushing (by rw [k.works.param, hto]; exact hc) hst', hv]
    have hvok : v.tableOk := hs ▸ (confirmSweep_held s).table hok
    have hvr : v.role.active = s.role.active ∧ v.role.cutLimit = s.role.cutLimit := by
      rw [kv.role, k.role]; exact ⟨rfl, rfl⟩
    obtain ⟨f1, f2, f3, f4, f5⟩ := finish_of_released hvok (by rw [kv.mirror]; exact hst') hvp hvm
    have ks := sendRoleChanges_sends v.finish s.role.phase (s.assigned .a) (s.assigned .b)
    refine ⟨v.finish.sendRoleChanges s.role.phase (s.assigned .a) (s.assigned .b), ?_, fun g => ?_, ?_, fun h => ?_, ?_, ?_⟩
    · rw [← hs]; rfl
    · exact (isMarked_of_sends ks g).trans (f1 g)
    · rw [ks.role]; exact f2
    · rw [ks.role] at h
      rw [ks.mirror, ks.role, f3 h, kv.mirror]
      exact ⟨hst', hvr.2⟩
    · refine Eq.trans (congrArg (fun es : Vector EventState 16 => es.get EventId.mirrorStalled.index)
        (sendRoleChanges_events _ _ _ _)) (f4.trans ?_)
      refine Eq.trans ?_ (k.event .mirrorStalled)
      simp only [State.event, kv.events]
    · rw [ks.role, f5, hvr.1]
  · let v := b.records.foldl (fun t r => t.clearInflight r.handle) (timedOut s)
    have k : Lanes (timedOut s) v := clearInflights_lanes _ _
    have hvm : v.mirror = (timedOut s).mirror := clearInflights_mirror _ _
    have hs : s.confirmSweep = v := by
      rw [confirmSweep_of_due hb ha hn, returnRecords_of_settle (s := timedOut s) hp]
      exact stallTest_of_below (by rw [k.works.param, hvm]; exact hc)
    have hfin : v.finish = v := by
      refine finish_of_undone ?_ (walkDone_of_state ?_)
      · have : v.park.framesHeld ≠ 0 := by rw [k.park]; exact hf
        simp [State.settleDone, this]
      · rw [hvm]; exact hst ▸ nofun
    have hev : s.asEvent (fun w => w.confirmSweep.finish) = v := by
      rw [asEvent_unmoved] <;> rw [hs, hfin]
      · rw [k.role]; rfl
      · rw [k.role]; rfl
      · exact k.works.health
    refine ⟨v, congrArg Host.Outcome.next hev, hvm, k.role, ⟨?_, fun c hc => ?_⟩, fun r hr m hm => ?_, fun g hg => ?_⟩
    · exact (k.count _).trans ((count_inc _ _ _).trans (if_pos rfl))
    · exact (k.count _).trans ((count_inc _ _ _).trans (if_neg hc))
    · rw [clearInflights_entry, if_pos (List.mem_map_of_mem hr), mirrorOf_map]
      exact congrArg (Option.map _) hm
    · rw [clearInflights_entry, if_neg hg]; rfl

end Sys2Proof.SessionTable

/-! A release turn (R172, R173), and the turn that ends SETTLE (R160). -/

namespace Sys2Proof.SessionTable

open Sys2Proof Sys2Proof.Machine Sys2Proof.Laws

variable {s t u : State}

/-! ## One frame released -/

/-- The LIVE part of the entry at a handle. -/
def liveAt (s : State) (h : Nat) : Option LivePart := (s.entry? h).bind Entry.live?

theorem entry_of_liveAt {h : Nat} {l : LivePart} (hl : liveAt s h = some l) :
    ∃ e d m, s.entry? h = some e ∧ e.body = .live d m l := by
  obtain ⟨e, he, hel⟩ := Option.bind_eq_some_iff.mp hl
  cases hb : e.body <;> simp only [Entry.live?, hb, Option.some.injEq, reduceCtorEq] at hel
  subst hel
  exact ⟨e, _, _, he, hb⟩

theorem liveAt_modifyEntry (s : State) (h : Nat) (g : LivePart → LivePart) :
    liveAt (s.modifyEntry h (·.mapLive g)) h = (liveAt s h).map g := by
  unfold liveAt
  rw [modifyEntry_self]
  cases s.entry? h with
  | none => rfl
  | some e => exact live?_mapLive e g

theorem chain_of_liveAt {h : Nat} {l : LivePart} (hl : liveAt s h = some l) :
    (s.entry? h).map Entry.chain = some l.chain := by
  obtain ⟨e, d, m, he, hb⟩ := entry_of_liveAt hl
  simp [he, Entry.chain, Entry.live?, hb]

/-- From `s` to `t` the entry at a handle may have been refreshed and tracked: its LIVE part, the other entries, the Park Buffer
and the roles stay. -/
structure Passes (s t : State) (h : Nat) : Prop where
  live : liveAt t h = liveAt s h
  others : s.othersKept t h
  park : t.park = s.park
  role : t.role = s.role

theorem Passes.trans {h : Nat} (a : Passes s t h) (b : Passes t u h) : Passes s u h :=
  ⟨b.live.trans a.live, othersKept_trans a.others b.others, b.park.trans a.park, b.role.trans a.role⟩

theorem passes_of_sends (k : Sends s t) (h : Nat) : Passes s t h :=
  ⟨congrArg (Option.bind · Entry.live?) (entry?_of_table (by rw [k.table]) h), othersKept_of_sends h k, k.park, k.role⟩

theorem inc_passes (s : State) (c : Counter) (h : Nat) : Passes s (s.inc c) h := ⟨rfl, fun _ _ => rfl, rfl, rfl⟩

theorem refreshIdle_passes (s : State) (h : Nat) : Passes s (s.refreshIdle h) h := by
  refine ⟨?_, modifyEntry_others s h _, (refreshIdle_lanes s h).park, (refreshIdle_lanes s h).role⟩
  unfold liveAt State.refreshIdle
  rw [modifyEntry_self]
  cases s.entry? h <;> rfl

theorem trackFrame_passes (s : State) (h : Nat) (p : Port) (v : SessionView) : Passes s (s.trackFrame h p v) h := by
  have k := trackFrame_tracks s h p v
  refine ⟨?_, trackFrame_others s h p v, k.park, k.role⟩
  unfold liveAt
  cases he : s.entry? h with
  | none => simp only [State.trackFrame, he]
  | some e =>
    obtain ⟨f, x, hx⟩ := trackFrame_self p v he
    rw [hx]
    exact live?_mapMirror _ f

/-- R83, R173: a frame handed on reaches the queue of its port alone, and TX_DROP and ANOMALIES alone are counted. -/
theorem forwardMatched_port (s : State) (h : Nat) (p q : Port) (v : SessionView) (f : Frame) (r : Port) :
    (s.forwardMatched h p q v f).port r = (s.handTx q f).port r := by
  unfold State.forwardMatched
  split
  · rw [(trackFrame_tracks _ h p v).port, (refreshIdle_lanes _ h).port]
  · rfl

theorem forwardMatched_count (s : State) (h : Nat) (p q : Port) (v : SessionView) (f : Frame) {c : Counter}
    (h1 : c ≠ .txDrop) (h2 : c ≠ .anomalies) : (s.forwardMatched h p q v f).count c = s.count c := by
  unfold State.forwardMatched
  split
  · rw [trackFrame_count h2, (refreshIdle_lanes _ h).count, handTx_count _ _ _ h1]
  · exact handTx_count _ _ _ h1

theorem forwardMatched_passes (s : State) (h : Nat) (p q : Port) (v : SessionView) (f : Frame) :
    Passes s (s.forwardMatched h p q v f) h := by
  have k := passes_of_sends (handTx_sends s q f) h
  unfold State.forwardMatched
  split
  · exact (k.trans (refreshIdle_passes _ h)).trans (trackFrame_passes _ h p v)
  · exact k

/-- R173: the frame handed on, whether or not its bytes still read as a session's. -/
def passedOn (s : State) (h : Nat) (p : Parked) (q : Port) : State :=
  match readFrame p.bytes with
  | .session v => s.forwardMatched h p.port q v p.bytes
  | _ => s.handTx q p.bytes

theorem passedOn_passes (s : State) (h : Nat) (p : Parked) (q : Port) : Passes s (passedOn s h p q) h := by
  unfold passedOn
  split
  · exact forwardMatched_passes s h p.port q _ p.bytes
  · exact passes_of_sends (handTx_sends s q p.bytes) h

theorem passedOn_port (s : State) (h : Nat) (p : Parked) (q r : Port) :
    (passedOn s h p q).port r = (s.handTx q p.bytes).port r := by
  unfold passedOn
  split
  · exact forwardMatched_port s h p.port q _ p.bytes r
  · rfl

theorem passedOn_released (s : State) (h : Nat) (p : Parked) (q : Port) :
    (passedOn s h p q).count .released = s.count .released := by
  unfold passedOn
  split
  · exact forwardMatched_count s h p.port q _ p.bytes (by decide) (by decide)
  · exact handTx_count s q p.bytes (by decide)

/-- R172: the frame taken off its chain, its cells freed. -/
def unchained (s : State) (h : Nat) (p : Parked) (rest : List Parked) : State :=
  (s.modifyEntry h (·.mapLive (fun l => { l with chain := rest }))).freeCells p

theorem releaseFrame_eq (s : State) (h : Nat) (p : Parked) (rest : List Parked) : s.releaseFrame h p rest =
    passedOn (if (unchained s h p rest).canHand ((unchained s h p rest).releasePort p.port) then
      (unchained s h p rest).inc .released else unchained s h p rest) h p ((unchained s h p rest).releasePort p.port) := by
  unfold State.releaseFrame passedOn
  rfl

theorem unchained_cells (s : State) (h : Nat) (p : Parked) (rest : List Parked) :
    Cells (s.modifyEntry h (·.mapLive (fun l => { l with chain := rest }))) (unchained s h p rest) := freeCells_cells _ p

theorem unchained_role (s : State) (h : Nat) (p : Parked) (rest : List Parked) : (unchained s h p rest).role = s.role :=
  (unchained_cells s h p rest).role.trans (modifyEntry_role s h _)

theorem unchained_live {h : Nat} {l : LivePart} (p : Parked) (rest : List Parked) (hl : liveAt s h = some l) :
    liveAt (unchained s h p rest) h = some { l with chain := rest } := by
  refine (congrArg (Option.bind · Entry.live?) ((unchained_cells s h p rest).entry? h)).trans ?_
  refine (liveAt_modifyEntry s h _).trans ?_
  rw [hl]; rfl

theorem unchained_others (s : State) (h : Nat) (p : Parked) (rest : List Parked) : s.othersKept (unchained s h p rest) h :=
  fun g hg => ((unchained_cells s h p rest).entry? g).trans (modifyEntry_others s h _ g hg)

/-- R167: a frame fewer is held; the Release Queue stays. -/
theorem freeCells_park (s : State) (p : Parked) : (s.freeCells p).park.framesHeld = s.park.framesHeld - 1 ∧
    (s.freeCells p).park.releaseQueue = s.park.releaseQueue := by
  unfold State.freeCells
  rw [comparePark_park]
  exact ⟨rfl, rfl⟩

theorem unchained_park (s : State) (h : Nat) (p : Parked) (rest : List Parked) :
    (unchained s h p rest).park.framesHeld = s.park.framesHeld - 1 ∧
      (unchained s h p rest).park.releaseQueue = s.park.releaseQueue := by
  obtain ⟨k1, k2⟩ := freeCells_park (s.modifyEntry h (·.mapLive (fun l => { l with chain := rest }))) p
  rw [unchained, k1, k2, modifyEntry_park]
  exact ⟨rfl, rfl⟩

theorem unchained_port {q : Port} (s : State) (h : Nat) (p : Parked) (rest : List Parked)
    (hq : q ≠ .aIn ∧ q ≠ .bIn ∧ q ≠ .lan) : (unchained s h p rest).port q = s.port q :=
  (comparePark_port _ hq).trans ((modifyEntry_lanes s h _).port q)

theorem unchained_released (s : State) (h : Nat) (p : Parked) (rest : List Parked) :
    (unchained s h p rest).count .released = s.count .released :=
  (freeCells_count _ p (by decide)).trans ((modifyEntry_lanes s h _).count _)

/-- R172, R173: what one released frame leaves of its entry, of the others, of the Park Buffer and of the roles. -/
theorem releaseFrame_leaves {h : Nat} {l : LivePart} (p : Parked) (rest : List Parked) (hl : liveAt s h = some l) :
    liveAt (s.releaseFrame h p rest) h = some { l with chain := rest } ∧ s.othersKept (s.releaseFrame h p rest) h ∧
      (s.releaseFrame h p rest).park.framesHeld = s.park.framesHeld - 1 ∧
      (s.releaseFrame h p rest).park.releaseQueue = s.park.releaseQueue ∧ (s.releaseFrame h p rest).role = s.role := by
  have k : Passes (unchained s h p rest) (s.releaseFrame h p rest) h := by
    rw [releaseFrame_eq]
    refine Passes.trans ?_ (passedOn_passes _ h p _)
    split
    · exact inc_passes _ _ h
    · exact ⟨rfl, othersKept_refl _ h, rfl, rfl⟩
  obtain ⟨k1, k2⟩ := unchained_park s h p rest
  exact ⟨k.live.trans (unchained_live p rest hl), othersKept_trans (unchained_others s h p rest) k.others,
    (congrArg Park.framesHeld k.park).trans k1, (congrArg Park.releaseQueue k.park).trans k2,
    k.role.trans (unchained_role s h p rest)⟩

theorem outPort_ne (f : Fw) : f.outPort ≠ .aIn ∧ f.outPort ≠ .bIn ∧ f.outPort ≠ .lan := by
  cases f <;> exact ⟨nofun, nofun, nofun⟩

theorem port_inc (s : State) (c : Counter) (p : Port) : (s.inc c).port p = s.port p := rfl

theorem hasRoom_congr {p : Port} {n : Nat} (h : t.port p = s.port p) (hr : s.hasRoom p n) : t.hasRoom p n := by
  unfold State.hasRoom
  rwa [h]

theorem handTx_port_self {q : Port} (h : s.canHand q = true) (f : Frame) :
    (s.handTx q f).port q = { s.port q with tx := (s.port q).tx ++ [f] } := by
  rw [handTx_of_canHand h, State.queued, port_setPort, if_pos rfl]

/-- R173: a frame that can be handed on is counted, then handed on. -/
theorem releaseFrame_of_canHand {h : Nat} {p : Parked} {rest : List Parked} {q : Port}
    (hq : (unchained s h p rest).releasePort p.port = q) (hc : (unchained s h p rest).canHand q = true) :
    s.releaseFrame h p rest = passedOn ((unchained s h p rest).inc .released) h p q := by
  rw [releaseFrame_eq, hq, if_pos hc]

/-- R70, R173: a frame that arrived at WAN joins the OUT port of the active firewall, and is counted. -/
theorem releaseFrame_sends {h : Nat} {p : Parked} (rest : List Parked) (hp : p.port = .wan)
    (hr : s.hasRoom s.role.active.outPort 1) :
    (s.releaseFrame h p rest).port s.role.active.outPort = { s.port s.role.active.outPort with
        tx := (s.port s.role.active.outPort).tx ++ [p.bytes] } ∧
      (s.releaseFrame h p rest).count .released = min (s.count .released + 1) Config.counterMax := by
  have hport := unchained_port s h p rest (outPort_ne s.role.active)
  have hport' := (port_inc (unchained s h p rest) .released s.role.active.outPort).trans hport
  have hdest : (unchained s h p rest).releasePort p.port = s.role.active.outPort := by
    rw [State.releasePort, hp, if_neg nofun, unchained_role]
  rw [releaseFrame_of_canHand hdest (canHand_of_hasRoom (hasRoom_congr hport hr)), passedOn_port, passedOn_released,
    handTx_port_self (canHand_of_hasRoom (hasRoom_congr hport' hr)), hport', count_inc, if_pos rfl, unchained_released]
  exact ⟨rfl, rfl⟩

/-! ## A whole chain released -/

theorem releaseFrames_cons {n h : Nat} {l : LivePart} {p : Parked} {rest : List Parked} (hl : liveAt s h = some l)
    (hc : l.chain = p :: rest) :
    State.releaseFrames (n + 1) s h = State.releaseFrames n (s.releaseFrame h p rest) h := by
  simp only [State.releaseFrames, chain_of_liveAt hl, hc]

theorem releaseFrames_nil {n h : Nat} {l : LivePart} (hl : liveAt s h = some l) (hc : l.chain = []) :
    State.releaseFrames n s h = s := by
  cases n with
  | zero => rfl
  | succ n => simp only [State.releaseFrames, chain_of_liveAt hl, hc]

/-- R172: a turn with room for the whole chain empties it, by induction on the chain. -/
theorem releaseFrames_empties {ps : List Parked} {n h : Nat} {l : LivePart} (hl : liveAt s h = some l) (hc : l.chain = ps)
    (hn : ps.length ≤ n) :
    liveAt (State.releaseFrames n s h) h = some { l with chain := [] } ∧ s.othersKept (State.releaseFrames n s h) h ∧
      (State.releaseFrames n s h).park.framesHeld = s.park.framesHeld - ps.length ∧
      (State.releaseFrames n s h).park.releaseQueue = s.park.releaseQueue := by
  induction ps generalizing s n l with
  | nil =>
    rw [releaseFrames_nil hl hc]
    exact ⟨by rw [hl, ← hc], othersKept_refl s h, rfl, rfl⟩
  | cons p rest ih =>
    obtain ⟨n, rfl⟩ := Nat.exists_eq_add_one_of_ne_zero (Nat.ne_of_gt (Nat.lt_of_lt_of_le (Nat.succ_pos _) hn))
    obtain ⟨k1, k2, k3, k4, -⟩ := releaseFrame_leaves p rest hl
    obtain ⟨i1, i2, i3, i4⟩ := ih (s := s.releaseFrame h p rest) (n := n) k1 rfl (Nat.le_of_succ_le_succ hn)
    rw [releaseFrames_cons hl hc]
    refine ⟨i1, othersKept_trans k2 i2, ?_, i4.trans k4⟩
    rw [i3, k3, List.length_cons]
    omega

/-- R70, R173: the frames of a chain that arrived at WAN reach the OUT port in their order, each counted. -/
theorem releaseFrames_sends {ps : List Parked} {n h : Nat} {l : LivePart} (hl : liveAt s h = some l) (hc : l.chain = ps)
    (hn : ps.length ≤ n) (hw : ∀ x ∈ ps, x.port = .wan) (hr : s.hasRoom s.role.active.outPort ps.length) :
    ((State.releaseFrames n s h).port s.role.active.outPort).tx =
        (s.port s.role.active.outPort).tx ++ ps.map (·.bytes) ∧
      (State.releaseFrames n s h).count .released =
        if ps.length = 0 then s.count .released else min (s.count .released + ps.length) Config.counterMax := by
  induction ps generalizing s n l with
  | nil =>
    rw [releaseFrames_nil hl hc]
    exact ⟨(List.append_nil _).symm, rfl⟩
  | cons p rest ih =>
    obtain ⟨n, rfl⟩ := Nat.exists_eq_add_one_of_ne_zero (Nat.ne_of_gt (Nat.lt_of_lt_of_le (Nat.succ_pos _) hn))
    obtain ⟨hup, hroom⟩ := hr
    simp only [List.length_cons, Config.txDepth] at hroom
    obtain ⟨k1, -, -, -, hrole⟩ := releaseFrame_leaves p rest hl
    obtain ⟨q1, q2⟩ := releaseFrame_sends (h := h) rest (hw p List.mem_cons_self)
      ⟨hup, show (s.port s.role.active.outPort).tx.length + 1 ≤ 64 by omega⟩
    have hroom' : (s.releaseFrame h p rest).hasRoom (s.releaseFrame h p rest).role.active.outPort rest.length := by
      rw [hrole]
      unfold State.hasRoom
      rw [q1]
      refine ⟨hup, ?_⟩
      simp only [List.length_append, List.length_cons, List.length_nil, Config.txDepth]
      omega
    obtain ⟨i1, i2⟩ := ih (s := s.releaseFrame h p rest) (n := n) k1 rfl (Nat.le_of_succ_le_succ hn)
      (fun x hx => hw x (List.mem_cons_of_mem p hx)) hroom'
    rw [hrole] at i1
    rw [releaseFrames_cons hl hc]
    refine ⟨?_, ?_⟩
    · rw [i1, q1, List.append_assoc]; rfl
    · rw [i2, q2, List.length_cons, if_neg (Nat.succ_ne_zero _)]
      split <;> omega

/-- R172: at the end of a turn an empty chain has age 0. -/
theorem endTurn_of_empty {h : Nat} {l : LivePart} (hl : liveAt s h = some l) (hc : l.chain = []) :
    s.endTurn h = s.modifyEntry h (·.mapLive (fun l => { l with chainAge := 0 })) := by
  obtain ⟨e, d, m, he, hb⟩ := entry_of_liveAt hl
  have hce : e.chain = [] := by simp [Entry.chain, Entry.live?, hb, hc]
  simp [State.endTurn, he, hce]

/-- R172: the turn taken with the handle off the Release Queue. -/
def dequeued (s : State) (rest : List Nat) : State := { s with park := { s.park with releaseQueue := rest } }

theorem releaseTurn_of_ready {h : Nat} {rest : List Nat} (hr : s.turnReady = true) (hq : s.park.releaseQueue = h :: rest) :
    s.releaseTurn = (State.releaseFrames Config.releaseBurst (dequeued s rest) h).endTurn h := by
  simp only [State.releaseTurn, hr, if_true, hq]
  rfl

theorem turnReady_of {h : Nat} {rest : List Nat} (hq : s.park.releaseQueue = h :: rest)
    (h1 : (s.port s.role.active.outPort).tx.length ≤ 56) (h2 : (s.port s.role.active.inPort).tx.length ≤ 56) :
    s.turnReady = true := by
  simp [State.turnReady, hq, Config.releaseRoom, h1, h2]

theorem releaseTurn_tends (s : State) : Tends s s.releaseTurn := by
  unfold State.releaseTurn
  split
  · split
    · exact .refl s
    · exact ((park_tends s _).trans (releaseFrames_tends _ _ _)).trans (endTurn_tends _ _)
  · exact .refl s

/-- R172: a turn that has room for the whole chain at the head of the queue. -/
theorem releaseTurn_empties {h : Nat} {rest : List Nat} {l : LivePart} (hr : s.turnReady = true)
    (hq : s.park.releaseQueue = h :: rest) (hl : liveAt s h = some l) (hn : l.chain.length ≤ 8) :
    liveAt s.releaseTurn h = some { l with chain := [], chainAge := 0 } ∧ s.othersKept s.releaseTurn h ∧
      s.releaseTurn.park.framesHeld = s.park.framesHeld - l.chain.length ∧ s.releaseTurn.park.releaseQueue = rest := by
  have hl' : liveAt (dequeued s rest) h = some l := hl
  obtain ⟨k1, k2, k3, k4⟩ := releaseFrames_empties (n := Config.releaseBurst) hl' rfl hn
  rw [releaseTurn_of_ready hr hq, endTurn_of_empty k1 rfl, liveAt_modifyEntry, k1, modifyEntry_park]
  exact ⟨rfl, othersKept_trans (t := State.releaseFrames Config.releaseBurst (dequeued s rest) h) k2 (modifyEntry_others _ h _),
    k3, k4⟩

/-- R178: a turn taken is one event. -/
theorem releaseEvent_of_ready (hr : s.turnReady = true) : s.releaseEvent = s.asEvent (fun v => v.releaseTurn.finish) :=
  if_pos hr

theorem liveAt_of_entry {h : Nat} {e : Entry} {d : Declared} {m : MirrorPart} {l : LivePart} (he : s.entry? h = some e)
    (hb : e.body = .live d m l) : liveAt s h = some l := by
  simp [liveAt, he, Entry.live?, hb]

/-- Settles O48: the chain by induction, then the tests of R160 that the turn's event ends with. -/
theorem releaseTurnSendsTheChainInOrder : Obligations.ReleaseTurnSendsTheChainInOrder := by
  refine ⟨fun s h rest e d m l hqt hq he hb hc hn hw hup h1 h2 => ?_,
    fun s h e d m l hok hp hsl htg hq he hb hc hn hf h1 h2 => ?_⟩
  · have hr := turnReady_of hq h1 h2
    have hl := liveAt_of_entry he hb
    obtain ⟨k1, k2, k3, k4⟩ := releaseTurn_empties hr hq hl hn
    have kt := releaseTurn_tends s
    have hroom : (dequeued s rest).hasRoom s.role.active.outPort l.chain.length :=
      ⟨hup, show (s.port s.role.active.outPort).tx.length + l.chain.length ≤ 64 by omega⟩
    obtain ⟨q1, q2⟩ := releaseFrames_sends (s := dequeued s rest) (n := Config.releaseBurst) (h := h) hl rfl hn hw hroom
    obtain ⟨f1, -⟩ := releaseFrames_empties (s := dequeued s rest) (n := Config.releaseBurst) (h := h) hl rfl hn
    have hturn : s.releaseTurn = (State.releaseFrames Config.releaseBurst (dequeued s rest) h).modifyEntry h
        (·.mapLive (fun l => { l with chainAge := 0 })) := by
      rw [releaseTurn_of_ready hr hq, endTurn_of_empty f1 rfl]
    have kl := modifyEntry_lanes (State.releaseFrames Config.releaseBurst (dequeued s rest) h) h
      (·.mapLive (fun l => { l with chainAge := 0 }))
    rw [← hturn] at kl
    refine ⟨s.releaseTurn, congrArg Host.Outcome.next ((releaseEvent_of_ready hr).trans ?_), ?_, ?_, k3, k4, k2, ?_, kt.role⟩
    · exact asEvent_finish_of_quiet (by rw [kt.works.mirrorState]; exact hqt.1) hqt.2 kt.role kt.works.health
    · rw [kl.port]; exact q1
    · exact congrArg (Option.map fun x : LivePart => (x.chain, x.chainAge)) k1
    · rw [kl.count, q2, if_neg (fun k => hc (List.length_eq_zero_iff.mp k))]
      rfl
  · have hr := turnReady_of hq h1 h2
    obtain ⟨-, -, k3, k4⟩ := releaseTurn_empties hr hq (liveAt_of_entry he hb) hn
    have kt := releaseTurn_tends s
    have hokt : s.releaseTurn.tableOk := (releaseTurn_held s).table hok
    have hd : s.releaseTurn.settleDone = true := by
      rw [State.settleDone, kt.role, hp, k3, hf, Nat.sub_self, k4, kt.works.batches, hsl]
      rfl
    have htarget : s.releaseTurn.mirror.target = some s.releaseTurn.role.active := by
      rw [kt.works.target, kt.role]; exact htg
    have hfin := finish_of_settleDone hd (.inr htarget)
    have ks := sendRoleChanges_sends (settleEnded s.releaseTurn).retarget s.role.phase (s.assigned .a) (s.assigned .b)
    have hrole := (endedSettle_role hokt).trans (settleEnded_role s.releaseTurn)
    rw [kt.role] at hrole
    have husable : (settleEnded s.releaseTurn).usable s.role.active.other = s.usable s.role.active.other :=
      (settleEnded_usable _ _).trans (kt.works.usable _)
    have hact : (settleEnded s.releaseTurn).role.active = s.role.active := by rw [settleEnded_role, kt.role]
    have hstand : (settleEnded s.releaseTurn).standby =
        if s.usable s.role.active.other then some s.role.active.other else none := by
      rw [State.standby, hact, husable]
    have htgt : (settleEnded s.releaseTurn).mirror.target = some s.role.active := by
      rw [settleEnded_mirror, kt.works.target, htg]
    refine ⟨_, congrArg Host.Outcome.next ((releaseEvent_of_ready hr).trans (congrArg
      (State.sendRoleChanges · s.role.phase (s.assigned .a) (s.assigned .b)) hfin)), ?_⟩
    rw [ks.role, ks.mirror, hrole]
    refine ⟨rfl, rfl, rfl, fun g => ?_, ?_, rfl, rfl, rfl, fun hu => ?_, fun hu => ?_⟩
    · exact (isMarked_of_sends ks g).trans (endedSettle_isMarked hokt g)
    · have hev : ∀ v w : State, v.events = w.events → v.event .cutoverEnd = w.event .cutoverEnd := fun v w k => by
        simp only [State.event, k]
      rw [hev _ _ (sendRoleChanges_events _ _ _ _), retarget_event _ (by decide) (by decide), settleEnded_event, if_pos rfl]
      unfold EventState.next
      split <;> rfl
    · rw [hu, if_pos rfl] at hstand
      rcases retarget_cases (settleEnded s.releaseTurn) with ⟨-, hk⟩ | ⟨f, hk, ht⟩ | ⟨hk, -⟩
      · rw [htgt, hstand] at hk
        exact absurd (Option.some.inj hk).symm (other_ne _)
      · rw [hstand] at hk
        obtain ⟨w1, w2, -⟩ := walkStart_mirror (settleEnded s.releaseTurn) f
        rw [ht]
        exact ⟨w1.trans hk.symm, w2⟩
      · rw [hstand] at hk; cases hk
    · rw [hu, if_neg nofun] at hstand
      rcases retarget_cases (settleEnded s.releaseTurn) with ⟨-, hk⟩ | ⟨f, hk, -⟩ | ⟨-, ht⟩
      · rw [htgt, hstand] at hk; cases hk
      · rw [hstand] at hk; cases hk
      · rw [ht]; exact targetLoss_mirror _

end Sys2Proof.SessionTable

/-! Sequence tracking (chapter 2): an edge written in one direction, the steps of a segment (R32 to R42) one equation each,
and the caps they keep. -/

namespace Sys2Proof.SequenceTracking

open Sys2Proof Sys2Proof.Machine

variable {t x : Tracking} {d : Dir} {g : Segment}

/-! ## Edges by direction -/

theorem dir_other_ne (d : Dir) : d.other ≠ d := by cases d <;> decide

theorem dir_setDir (t : Tracking) (d c : Dir) (e : DirEdges) : (t.setDir d e).dir c = if c = d then e else t.dir c := by
  cases d <;> cases c <;> rfl

@[simp] theorem dir_setDir_self (t : Tracking) (d : Dir) (e : DirEdges) : (t.setDir d e).dir d = e := by
  rw [dir_setDir, if_pos rfl]

@[simp] theorem dir_setDir_other (t : Tracking) (d : Dir) (e : DirEdges) : (t.setDir d e).dir d.other = t.dir d.other := by
  rw [dir_setDir, if_neg (dir_other_ne d)]

@[simp] theorem setDir_dir (t : Tracking) (d : Dir) : t.setDir d (t.dir d) = t := by cases d <;> rfl

@[simp] theorem setDir_anomalies (t : Tracking) (d : Dir) (e : DirEdges) : (t.setDir d e).anomalies = t.anomalies := by
  cases d <;> rfl

@[simp] theorem setDir_scale (t : Tracking) (d c : Dir) (e : DirEdges) : (t.setDir d e).scale c = t.scale c := by
  cases d <;> cases c <;> rfl

@[simp] theorem anomaly_dir (t : Tracking) (c : Dir) : t.anomaly.dir c = t.dir c := by cases c <;> rfl

@[simp] theorem anomaly_scale (t : Tracking) (c : Dir) : t.anomaly.scale c = t.scale c := by cases c <;> rfl

theorem setScale_scale (t : Tracking) (d c : Dir) (k : Nat) : (t.setScale d k).scale c = if c = d then k else t.scale c := by
  cases d <;> cases c <;> rfl

/-! ## A value learned as an edge -/

/-- R40, R41: an edge takes a value where it has none, or the value is after its own. -/
def newer (old : Option Seq32) (a : Seq32) : Bool := old.isNone || old.any (fun q => isAfter a q)

/-- R40, R41: the edge when a value in window was seen. -/
def latest (old : Option Seq32) (a : Seq32) : Option Seq32 := if newer old a then some a else old

/-- R39, R40: a segment passes step 3. -/
def InWindow (x : Tracking) (d : Dir) (g : Segment) : Prop := ∀ re, x.rightEdge d = some re → isAfter g.endSeq re = false

/-! ## The steps of a segment -/

/-- R39: without a right edge the direction has no hi_seq either. -/
theorem hiSeq_of_rightEdge_none (h : x.rightEdge d = none) : (x.dir d).hiSeq = none := by
  unfold Tracking.rightEdge at h
  split at h
  · cases h
  · exact Option.map_eq_none_iff.mp h

theorem seqCheck_of_after {re : Seq32} {e : Seq32} (h : x.rightEdge d = some re) (he : isAfter e re = true) :
    x.seqCheck d e = .outOfWindow := by
  simp only [Tracking.seqCheck, h, he, if_true]

theorem seqCheck_of_inWindow (h : InWindow x d g) :
    x.seqCheck d g.endSeq = if newer (x.dir d).hiSeq g.endSeq then .advanced g.endSeq else .unmoved := by
  unfold Tracking.seqCheck
  cases hr : x.rightEdge d with
  | none => simp [hiSeq_of_rightEdge_none hr, newer]
  | some re => cases hq : (x.dir d).hiSeq <;> simp [h re hr, newer]

/-- R36: step 4 writes scales only. -/
@[simp] theorem synScale_dir (t : Tracking) (d c : Dir) (g : Segment) : (t.synScale d g).dir c = t.dir c := by
  unfold Tracking.synScale
  split
  · rfl
  · split
    · cases d <;> cases c <;> rfl
    · cases c <;> rfl

@[simp] theorem synScale_anomalies (t : Tracking) (d : Dir) (g : Segment) : (t.synScale d g).anomalies = t.anomalies := by
  unfold Tracking.synScale
  split
  · rfl
  · split
    · cases d <;> rfl
    · rfl

@[simp] theorem synScale_ackBeyond (t : Tracking) (d : Dir) (g : Segment) (a : Seq32) :
    (t.synScale d g).ackBeyond d a = t.ackBeyond d a := by
  simp only [Tracking.ackBeyond, synScale_dir]

theorem ackBeyond_eq (t : Tracking) (d : Dir) (a : Seq32) :
    t.ackBeyond d a = (t.dir d.other).hiSeq.any (fun q => isAfter a q) := by
  unfold Tracking.ackBeyond
  cases (t.dir d.other).hiSeq <;> rfl

/-- R41: step 5 with the acknowledgement out of window. -/
theorem ackStep_of_beyond (ha : g.ackFlag = true) (hb : t.ackBeyond d g.ack = true) :
    t.ackStep d g = (t.anomaly, true) := by
  simp [Tracking.ackStep, ha, hb]

/-- R41: step 5 with the acknowledgement in window. -/
theorem ackStep_of_not_beyond (ha : g.ackFlag = true) (hb : t.ackBeyond d g.ack = false) :
    t.ackStep d g = (t.setDir d { t.dir d with hiAck := latest (t.dir d).hiAck g.ack }, false) := by
  cases hq : (t.dir d).hiAck with
  | none => simp [Tracking.ackStep, latest, newer, ha, hb, hq]
  | some q =>
    cases hn : isAfter g.ack q with
    | true => simp [Tracking.ackStep, latest, newer, ha, hb, hq, hn]
    | false =>
      have hkeep : latest (some q) g.ack = (t.dir d).hiAck := by simp [latest, newer, hn, hq]
      rw [hkeep, setDir_dir]
      simp [Tracking.ackStep, ha, hb, hq, hn]

theorem ackStep_of_no_ack (ha : g.ackFlag = false) : t.ackStep d g = (t, false) := by
  simp [Tracking.ackStep, ha]

/-- R41: step 5 counts an anomaly, or writes hi_ack of its direction. -/
theorem ackStep_cases (t : Tracking) (d : Dir) (g : Segment) :
    (t.ackStep d g).1 = t.anomaly ∨ ∃ a, (t.ackStep d g).1 = t.setDir d { t.dir d with hiAck := a } := by
  cases ha : g.ackFlag with
  | false => exact .inr ⟨(t.dir d).hiAck, by rw [ackStep_of_no_ack ha, setDir_dir]⟩
  | true =>
    cases hb : t.ackBeyond d g.ack with
    | true => exact .inl (by rw [ackStep_of_beyond ha hb])
    | false => exact .inr ⟨_, by rw [ackStep_of_not_beyond ha hb]⟩

/-- R35: max_win after a window was seen: the larger of the two. -/
def widest (old : Option Seq32) (w : Seq32) : Seq32 := old.elim w (fun v => if v.toNat < w.toNat then w else v)

theorem windowStep_eq (t : Tracking) (d : Dir) (g : Segment) :
    t.windowStep d g = t.setDir d { t.dir d with maxWin := some (widest (t.dir d).maxWin (segWindow t d g)) } := by
  unfold Tracking.windowStep widest
  cases hm : (t.dir d).maxWin with
  | none => rfl
  | some v =>
    simp only [Option.elim_some]
    split
    · rfl
    · rw [← hm]
      exact (setDir_dir t d).symm

theorem learn_tracking (t : Tracking) (d : Dir) (g : Segment) (m : Bool) :
    (t.learn d g m).tracking = ((t.synScale d g).ackStep d g).1.windowStep d g := rfl

/-! ## The three ends of a segment -/

theorem segment_of_rst (h : g.rst = true) : x.segment d g = { tracking := x, anomaly := false, moved := false } := by
  simp only [Tracking.segment, h, if_true]

theorem segment_of_after {re : Seq32} (hg : g.rst = false) (h : x.rightEdge d = some re) (he : isAfter g.endSeq re = true) :
    x.segment d g = { tracking := x.anomaly, anomaly := true, moved := false } := by
  simp [Tracking.segment, hg, seqCheck_of_after h he]

/-- The fields as step 3 leaves them for a segment in window. -/
def advanced (x : Tracking) (d : Dir) (g : Segment) : Tracking :=
  x.setDir d { x.dir d with hiSeq := latest (x.dir d).hiSeq g.endSeq }

theorem segment_of_inWindow (hg : g.rst = false) (h : InWindow x d g) :
    x.segment d g = (advanced x d g).learn d g (newer (x.dir d).hiSeq g.endSeq) := by
  simp only [Tracking.segment, hg, Bool.false_eq_true, if_false, seqCheck_of_inWindow h, advanced, latest]
  cases newer (x.dir d).hiSeq g.endSeq with
  | true => rfl
  | false => exact congrArg (·.learn d g false) (setDir_dir x d).symm

theorem segment_cases (x : Tracking) (d : Dir) (g : Segment) :
    (x.segment d g).tracking = x ∨ (x.segment d g).tracking = x.anomaly ∨
      ∃ m, x.segment d g = (advanced x d g).learn d g m := by
  cases hg : g.rst with
  | true => exact .inl (by rw [segment_of_rst hg])
  | false =>
    by_cases h : InWindow x d g
    · exact .inr (.inr ⟨_, segment_of_inWindow hg h⟩)
    · simp only [InWindow, not_forall, Bool.not_eq_false] at h
      obtain ⟨re, hr, he⟩ := h
      exact .inr (.inl (by rw [segment_of_after hg hr he]))

/-! ## What steps 4 to 6 leave of the edges -/

theorem learn_dir_other (t : Tracking) (d : Dir) (g : Segment) (m : Bool) :
    (t.learn d g m).tracking.dir d.other = t.dir d.other := by
  rw [learn_tracking, windowStep_eq, dir_setDir_other]
  rcases ackStep_cases (t.synScale d g) d g with h | ⟨a, h⟩ <;> simp [h]

theorem learn_hiSeq (t : Tracking) (d : Dir) (g : Segment) (m : Bool) :
    ((t.learn d g m).tracking.dir d).hiSeq = (t.dir d).hiSeq := by
  rw [learn_tracking, windowStep_eq, dir_setDir_self]
  rcases ackStep_cases (t.synScale d g) d g with h | ⟨a, h⟩ <;> simp [h]

/-- R41: an acknowledgement out of window is an anomaly and hi_ack stays. -/
theorem learn_of_beyond (m : Bool) (ha : g.ackFlag = true) (hb : t.ackBeyond d g.ack = true) :
    (t.learn d g m).anomaly = true ∧ (t.learn d g m).tracking.anomalies = min (t.anomalies + 1) 255 ∧
      ((t.learn d g m).tracking.dir d).hiAck = (t.dir d).hiAck := by
  have k : (t.synScale d g).ackStep d g = ((t.synScale d g).anomaly, true) :=
    ackStep_of_beyond ha (by rw [synScale_ackBeyond, hb])
  refine ⟨congrArg Prod.snd k, ?_, ?_⟩ <;> rw [learn_tracking, k, windowStep_eq]
  · simp [Tracking.anomaly]
  · simp

/-- R41: an acknowledgement in window is learned where it is newer. -/
theorem learn_of_not_beyond (m : Bool) (ha : g.ackFlag = true) (hb : t.ackBeyond d g.ack = false) :
    (t.learn d g m).anomaly = false ∧ (t.learn d g m).tracking.anomalies = t.anomalies ∧
      ((t.learn d g m).tracking.dir d).hiAck = latest (t.dir d).hiAck g.ack := by
  have k := ackStep_of_not_beyond (t := t.synScale d g) (d := d) ha (by rw [synScale_ackBeyond, hb])
  refine ⟨congrArg Prod.snd k, ?_, ?_⟩ <;> rw [learn_tracking, k, windowStep_eq] <;> simp

/-! ## The segment checks (R32, R39 to R42) -/

theorem advanced_ackBeyond (x : Tracking) (d : Dir) (g : Segment) (a : Seq32) :
    (advanced x d g).ackBeyond d a = (x.dir d.other).hiSeq.any (fun q => isAfter a q) := by
  rw [ackBeyond_eq, advanced, dir_setDir_other]

/-- Settles O18: step 3 by its three ends; of a segment in window, step 5 by whether the opposite hi_seq is passed. -/
theorem segmentsAreCheckedAgainstTheEdges : Obligations.SegmentsAreCheckedAgainstTheEdges := by
  refine ⟨fun x d g => ⟨segment_of_rst, fun re => segment_of_after, fun hg hw => ?_⟩,
    fun x d g hg ha hw => ⟨fun q hq hb => ?_, fun hb => ?_⟩⟩
  · rw [segment_of_inWindow hg hw, learn_hiSeq, learn_dir_other]
    simp only [advanced, dir_setDir_self, dir_setDir_other, and_true]
    exact ⟨rfl, rfl⟩
  · have hbeyond : (advanced x d g).ackBeyond d g.ack = true := by rw [advanced_ackBeyond, hq]; exact hb
    rw [segment_of_inWindow hg hw]
    simpa [advanced] using learn_of_beyond (newer (x.dir d).hiSeq g.endSeq) ha hbeyond
  · have hwithin : (advanced x d g).ackBeyond d g.ack = false := by
      rw [advanced_ackBeyond]
      cases hq : (x.dir d.other).hiSeq with
      | none => rfl
      | some q => exact hb q hq
    rw [segment_of_inWindow hg hw]
    simpa [advanced, latest, newer] using learn_of_not_beyond (newer (x.dir d).hiSeq g.endSeq) ha hwithin

/-! ## The caps (R34, R35, R36, R42) -/

/-- R34, R35, R42: scales, valid windows and the anomaly count, each within its cap. -/
structure Capped (x : Tracking) : Prop where
  scales : ∀ c, x.scale c ≤ 14
  windows : ∀ c w, (x.dir c).maxWin = some w → w.toNat ≤ Config.windowCap
  anomalies : x.anomalies ≤ 255

theorem capped_iff (x : Tracking) : Capped x ↔ x.scaleOut ≤ 14 ∧ x.scaleIn ≤ 14 ∧ x.anomalies ≤ 255 ∧
    (∀ w, x.out.maxWin = some w → w.toNat ≤ 1073725440) ∧ ∀ w, x.inn.maxWin = some w → w.toNat ≤ 1073725440 := by
  constructor
  · rintro ⟨hs, hw, ha⟩
    exact ⟨hs .out, hs .inn, ha, hw .out, hw .inn⟩
  · rintro ⟨ho, hi, ha, hwo, hwi⟩
    exact ⟨fun c => match c with | .out => ho | .inn => hi, fun c => match c with | .out => hwo | .inn => hwi, ha⟩

theorem Capped.anomaly (h : Capped x) : Capped x.anomaly :=
  ⟨fun c => by rw [anomaly_scale]; exact h.scales c, fun c w k => h.windows c w (by rwa [anomaly_dir] at k), min_le_right _ _⟩

theorem Capped.setDir (h : Capped x) (d : Dir) {e : DirEdges} (he : ∀ w, e.maxWin = some w → w.toNat ≤ Config.windowCap) :
    Capped (x.setDir d e) := by
  refine ⟨fun c => by rw [setDir_scale]; exact h.scales c, fun c w k => ?_, by rw [setDir_anomalies]; exact h.anomalies⟩
  rw [dir_setDir] at k
  split at k
  · exact he w k
  · exact h.windows c w k

theorem synScale_scale_le (t : Tracking) (d c : Dir) (g : Segment) (h : t.scale c ≤ 14) : (t.synScale d g).scale c ≤ 14 := by
  unfold Tracking.synScale
  split
  · exact h
  · split
    next k _ =>
      have hset : (t.setScale d (capScale k)).scale c ≤ 14 := by
        rw [setScale_scale]
        split
        · exact min_le_right _ _
        · exact h
      cases c <;> exact hset
    next => cases c <;> exact Nat.zero_le _

theorem Capped.synScale (h : Capped x) (d : Dir) (g : Segment) : Capped (x.synScale d g) :=
  ⟨fun c => synScale_scale_le x d c g (h.scales c), fun c w k => h.windows c w (by rwa [synScale_dir] at k),
    by rw [synScale_anomalies]; exact h.anomalies⟩

theorem Capped.ackStep (h : Capped x) (d : Dir) (g : Segment) : Capped (x.ackStep d g).1 := by
  rcases ackStep_cases x d g with k | ⟨a, k⟩ <;> rw [k]
  · exact h.anomaly
  · exact h.setDir d (h.windows d)

/-- R34: a window is capped, whatever its scale. -/
theorem segWindow_le (t : Tracking) (d : Dir) (g : Segment) : (segWindow t d g).toNat ≤ Config.windowCap := by
  rw [segWindow, BitVec.toNat_ofNat]
  exact (Nat.mod_le _ _).trans (min_le_left _ _)

theorem widest_le {old : Option Seq32} {w : Seq32} {n : Nat} (ho : ∀ v, old = some v → v.toNat ≤ n) (hw : w.toNat ≤ n) :
    (widest old w).toNat ≤ n := by
  cases old with
  | none => exact hw
  | some v =>
    simp only [widest, Option.elim_some]
    split
    · exact hw
    · exact ho v rfl

theorem le_widest (v w : Seq32) : v.toNat ≤ (widest (some v) w).toNat := by
  simp only [widest, Option.elim_some]
  split
  · omega
  · exact le_rfl

theorem Capped.windowStep (h : Capped x) (d : Dir) (g : Segment) : Capped (x.windowStep d g) := by
  rw [windowStep_eq]
  refine h.setDir d fun w k => ?_
  cases k
  exact widest_le (h.windows d) (segWindow_le x d g)

theorem Capped.segment (h : Capped x) (d : Dir) (g : Segment) : Capped (x.segment d g).tracking := by
  rcases segment_cases x d g with k | k | ⟨m, k⟩ <;> rw [k]
  · exact h
  · exact h.anomaly
  · have hadv : Capped (advanced x d g) := h.setDir d (h.windows d)
    exact ((hadv.synScale d g).ackStep d g).windowStep d g

/-! ## max_win never falls (R35) -/

theorem ackStep_maxWin (t : Tracking) (d : Dir) (g : Segment) : ((t.ackStep d g).1.dir d).maxWin = (t.dir d).maxWin := by
  rcases ackStep_cases t d g with k | ⟨a, k⟩ <;> simp [k]

theorem learn_maxWin_ge {w : Seq32} (m : Bool) (hw : (t.dir d).maxWin = some w) :
    ∃ w', ((t.learn d g m).tracking.dir d).maxWin = some w' ∧ w.toNat ≤ w'.toNat := by
  refine ⟨_, by rw [learn_tracking, windowStep_eq, dir_setDir_self], ?_⟩
  rw [ackStep_maxWin, synScale_dir, hw]
  exact le_widest _ _

theorem segment_maxWin_ge {w : Seq32} (g : Segment) (hw : (x.dir d).maxWin = some w) :
    ∃ w', ((x.segment d g).tracking.dir d).maxWin = some w' ∧ w.toNat ≤ w'.toNat := by
  rcases segment_cases x d g with k | k | ⟨m, k⟩ <;> rw [k]
  · exact ⟨w, hw, le_rfl⟩
  · exact ⟨w, by rw [anomaly_dir, hw], le_rfl⟩
  · exact learn_maxWin_ge m (by rw [advanced, dir_setDir_self]; exact hw)

/-- Settles O19: each step keeps the caps, and step 6, the one that writes max_win, keeps the larger window. -/
theorem scalesWindowsAndAnomaliesStayCapped : Obligations.ScalesWindowsAndAnomaliesStayCapped := by
  intro x d g ok hok
  exact ⟨(capped_iff _).mp (((capped_iff x).mpr hok).segment d g), fun w hw => segment_maxWin_ge g hw⟩

end Sys2Proof.SequenceTracking

/-! CCFs taken at a port (R72, R185), and the DECLAREs that are refused: whole (R48, R49) or record by record (R53 to R55). -/

namespace Sys2Proof.SessionDeclarations

open Sys2Proof Sys2Proof.Machine Sys2Proof.Laws Sys2Proof.SessionTable

variable {s t u : State}

/-! ## A CCF taken at a firewall's IN port (R72, R185, R186) -/

theorem kindOf_code (k : CcfKind) : kindOf k.code = some k := by cases k <;> rfl

theorem inOf_inPort (f : Fw) : f.inPort.inOf? = some f := by cases f <;> rfl

theorem gateTakes_inPort (s : State) (f : Fw) : s.gateTakes f.inPort = true := by cases f <;> rfl

theorem ccfCheck_of_good {k : CcfKind} {fr : Frame} {p : Port} (hg : goodCcf k fr = true) (ht : s.takenAt k p = true) :
    s.ccfCheck p (readCcf fr) = some k := by
  simp only [goodCcf, isCcfOf, Bool.and_eq_true, beq_iff_eq, decide_eq_true_eq] at hg
  obtain ⟨⟨⟨⟨-, hkind⟩, hver⟩, hlen⟩, hbody⟩ := hg
  simp [State.ccfCheck, hver, hkind, kindOf_code, ht, hbody, hlen]

/-- R68, R71, R72, R185: a CCF that passes every check is counted in and handed to its owner. -/
theorem receive_goodCcf {k : CcfKind} {fr : Frame} {f : Fw} (hg : goodCcf k fr = true)
    (ht : s.takenAt k f.inPort = true) :
    s.receive f.inPort fr = (s.inc (.framesIn f.inPort)).toOwner f.inPort k (readCcf fr) := by
  have hc : (s.inc (.framesIn f.inPort)).ccfCheck f.inPort (readCcf fr) = some k := ccfCheck_of_good hg ht
  simp only [goodCcf, isCcfOf, Bool.and_eq_true] at hg
  obtain ⟨⟨⟨⟨⟨⟨hok, hccf⟩, huntagged⟩, -⟩, -⟩, -⟩, -⟩ := hg
  simp [State.receive, State.ccfFrameIn, State.takeCcf, hok, hccf, huntagged, gateTakes_inPort, hc]

theorem exec_declare {fr : Frame} (f : Fw) (hg : goodCcf .declare fr = true) :
    exec (.declare f.inPort fr) s = .next ((s.inc (.framesIn f.inPort)).declareFrom f (readCcf fr)) := by
  refine congrArg Host.Outcome.next ((receive_goodCcf hg (by cases f <;> rfl)).trans ?_)
  simp [State.toOwner, State.bySender, inOf_inPort]

theorem exec_flushed {fr : Frame} (f : Fw) (hg : goodCcf .flushed fr = true) :
    exec (.flushed f.inPort fr) s = .next ((s.inc (.framesIn f.inPort)).flushedFrom f (readCcf fr)) := by
  refine congrArg Host.Outcome.next ((receive_goodCcf hg (by cases f <;> rfl)).trans ?_)
  simp [State.toOwner, State.bySender, inOf_inPort]

/-! ## A record refused (R54) -/

theorem counter_ne_txDrop (why : RefusalReason) : why.counter ≠ .txDrop := by cases why <;> decide

theorem refuseRecord_sends (s : State) (f : Fw) (seq : Word16) (pos : Nat) (why : RefusalReason) (key : Option Key) :
    Sends s (s.refuseRecord f seq pos why key) := (raise_sends s _ _).trans rfl

theorem refuseRecord_event (s : State) (f : Fw) (seq : Word16) (pos : Nat) (why : RefusalReason) (key : Option Key) :
    (s.refuseRecord f seq pos why key).event .declRefused = (s.event .declRefused).next := by
  rw [State.refuseRecord, event_inc, raise_event, if_pos rfl]

theorem refuseRecord_count (s : State) (f : Fw) (seq : Word16) (pos : Nat) (why : RefusalReason) (key : Option Key)
    {c : Counter} (hc : c ≠ .txDrop) : (s.refuseRecord f seq pos why key).count c =
      if c = why.counter then min (s.count why.counter + 1) Config.counterMax else s.count c := by
  rw [State.refuseRecord, count_inc, raise_count s _ _ hc, raise_count s _ _ (counter_ne_txDrop why)]

theorem applyRecord_of_bad {bs : List Byte} (f : Fw) (seq : Word16) (pos : Nat) (h : readDecl bs = none) :
    s.applyRecord f seq pos bs = s.refuseRecord f seq pos .badRecord (badRecordKey bs) := by
  simp only [State.applyRecord, h]

theorem applyRecord_of_refused {bs : List Byte} {r : DeclRecord} {f : Fw} {why : RefusalReason} (seq : Word16) (pos : Nat)
    (h : readDecl bs = some r) (hput : r.put = true) (he : s.put f r = .error why) :
    s.applyRecord f seq pos bs = s.refuseRecord f seq pos why (some r.outsideKey) := by
  simp only [State.applyRecord, h, hput, he, if_true]

theorem applyRecord_of_put {bs : List Byte} {r : DeclRecord} {f : Fw} {h : Nat} (seq : Word16) (pos : Nat)
    (hr : readDecl bs = some r) (hput : r.put = true) (he : s.put f r = .ok (h, t)) :
    s.applyRecord f seq pos bs = t.handOnPut f h := by
  simp only [State.applyRecord, hr, hput, he, if_true]

theorem applyRecord_of_drop {bs : List Byte} {r : DeclRecord} (f : Fw) (seq : Word16) (pos : Nat)
    (hr : readDecl bs = some r) (hput : r.put = false) : s.applyRecord f seq pos bs = s.drop r := by
  simp [State.applyRecord, hr, hput]

/-- Settles O23: whatever the reason, the record goes to `refuseRecord`, which counts and notifies alone. -/
theorem refusedRecordChangesNoEntry : Obligations.RefusedRecordChangesNoEntry := by
  intro s f seq pos bs why h
  have hrec : ∃ key, s.applyRecord f seq pos bs = s.refuseRecord f seq pos why key := by
    rcases h with ⟨hbad, rfl⟩ | ⟨r, hr, hput, he⟩
    · exact ⟨_, applyRecord_of_bad f seq pos hbad⟩
    · exact ⟨_, applyRecord_of_refused seq pos hr hput he⟩
  obtain ⟨key, hrec⟩ := hrec
  rw [hrec]
  refine ⟨refuseRecord_sends s f seq pos why key, refuseRecord_event s f seq pos why key, ?_, fun c hc hw => ?_⟩
  · exact (refuseRecord_count s f seq pos why key (counter_ne_txDrop why)).trans (if_pos rfl)
  · exact (refuseRecord_count s f seq pos why key hc).trans (if_neg hw)

/-! ## A DECLARE refused whole (R48, R49) -/

theorem isLateSource_iff (s : State) (f : Fw) : s.isLateSource f = true ↔
    s.role.source = some f ∧ s.role.kind = some .planned ∧ (s.role.phase = .transfer ∨ s.role.phase = .settle) ∧
      s.role.lateWindow.isRunning = true := by
  simp [State.isLateSource, State.inCutover, and_assoc]

theorem acceptsDeclare_iff (s : State) (f : Fw) :
    s.acceptsDeclare f = true ↔ s.role.active = f ∨ s.isLateSource f = true := by
  simp [State.acceptsDeclare]

theorem declareFrom_of_refused {f : Fw} (c : Ccf) (h : s.acceptsDeclare f = false) :
    s.declareFrom f c = s.refuseWrongRole f c := by simp [State.declareFrom, h]

/-- R49: the ports that the notice of a wrong role goes to, the sender's IN port among them in every case. -/
def wrongRolePorts (s : State) (f : Fw) : List Port :=
  let ps := s.occurrencePorts .wrongRole
  if ps.contains f.inPort then ps else ps ++ [f.inPort]

theorem raiseWrongRole_eq (s : State) (f : Fw) (bs : List Byte) :
    s.raiseWrongRole f bs = (s.latch .wrongRole).sendNotices (wrongRolePorts s f) .wrongRole bs := rfl

theorem occurrencePorts_nodup (s : State) (ev : EventId) : (s.occurrencePorts ev).Nodup := by
  unfold State.occurrencePorts
  split
  · exact List.nodup_nil
  · split
    · exact noticePorts_nodup s
    · exact List.nodup_nil

theorem wrongRolePorts_nodup (s : State) (f : Fw) : (wrongRolePorts s f).Nodup := by
  have hn := occurrencePorts_nodup s .wrongRole
  unfold wrongRolePorts
  dsimp only
  split
  · exact hn
  · rename_i h
    have hout : f.inPort ∉ s.occurrencePorts .wrongRole := by simpa using h
    exact List.nodup_append.mpr ⟨hn, List.nodup_singleton _, fun p hp q hq hpq =>
      hout (List.mem_singleton.mp hq ▸ hpq ▸ hp)⟩

theorem inPort_mem_wrongRolePorts (s : State) (f : Fw) : f.inPort ∈ wrongRolePorts s f := by
  unfold wrongRolePorts
  dsimp only
  split
  · rename_i h; simpa using h
  · simp

theorem raiseWrongRole_event (s : State) (f : Fw) (bs : List Byte) (ev : EventId) :
    (s.raiseWrongRole f bs).event ev = if ev = .wrongRole then (s.event .wrongRole).next else s.event ev := by
  rw [← event_latch, raiseWrongRole_eq]
  simp only [State.event, sendNotices_events]

theorem raiseWrongRole_count (s : State) (f : Fw) (bs : List Byte) {c : Counter} (hc : c ≠ .txDrop) :
    (s.raiseWrongRole f bs).count c = s.count c := sendNotices_count (s.latch .wrongRole) _ _ _ hc

theorem raiseWrongRole_notice {f : Fw} (hr : s.hasRoom f.inPort 1) (bs : List Byte) :
    ((s.raiseWrongRole f bs).port f.inPort).tx = (s.port f.inPort).tx ++
      [ccfFrame (s.fw f).learned s.unitAddress .notice 0#8 0#8 (BitVec.ofNat 16 (s.event .wrongRole).next.count)
        ([11#8] ++ be1 bs.length ++ bs)] := by
  have hlatch : (s.latch .wrongRole).event .wrongRole = (s.event .wrongRole).next := by rw [event_latch, if_pos rfl]
  refine (sendNotices_port_on (s := s.latch .wrongRole) (wrongRolePorts_nodup s f) (inPort_mem_wrongRolePorts s f) hr
    .wrongRole bs).trans ?_
  simp only [State.noticeFrame, State.noticeDst, inOf_inPort, hlatch]
  rfl

/-- Settles O21: the refusal counts the records and raises WRONG_ROLE, whose notice always goes to the sender's IN port. -/
theorem declareFromTheWrongRoleIsRefusedWhole : Obligations.DeclareFromTheWrongRoleIsRefusedWhole := by
  intro f fr s hg hactive hlate
  let v := s.inc (.framesIn f.inPort)
  let params := be1 (Fw.code f) ++ be1 (s.assigned f).code ++ be2 (readCcf fr).seq.toNat
  let w := v.add .refusedWrongRole (readCcf fr).records
  have hacc : v.acceptsDeclare f = false := by
    rw [← Bool.not_eq_true, acceptsDeclare_iff, isLateSource_iff]
    exact not_or.mpr ⟨hactive, hlate⟩
  refine ⟨w.raiseWrongRole f params, ?_, ?_, ?_, fun ev hev => ?_, ?_, fun c h1 h2 h3 => ?_, fun hr => ?_⟩
  · rw [exec_declare f hg, declareFrom_of_refused _ hacc]
    rfl
  · exact Sends.trans (show Sends s w from rfl) (raiseWrongRole_sends w f params)
  · exact (raiseWrongRole_event w f params _).trans (if_pos rfl)
  · exact (raiseWrongRole_event w f params _).trans (if_neg hev)
  · rw [raiseWrongRole_count _ _ _ (by decide), count_add, if_pos rfl, count_inc, if_neg (by cases f <;> decide)]
  · rw [raiseWrongRole_count _ _ _ h1, count_add, if_neg h3, count_inc, if_neg h2]
  · exact raiseWrongRole_notice (s := w) hr params

end Sys2Proof.SessionDeclarations

/-! An accepted DECLARE (R48, R51 to R53, R63, R64): the sequence check, and the walk of the records. -/

namespace Sys2Proof.SessionDeclarations

open Sys2Proof Sys2Proof.Machine Sys2Proof.Laws Sys2Proof.SessionTable

variable {s t u : State}

/-! ## The sequence check (R50, R51) -/

/-- R51: a baseline is set and the sequence is not the expected one. -/
def gapAt (s : State) (f : Fw) (n : Word16) : Bool := (s.decl.get f).any (fun r => r.expected != n)

/-- R50, R51: the sequence records after an accepted DECLARE. -/
def followed (s : State) (f : Fw) (n : Word16) : PerFw (Option SeqRecord) :=
  s.decl.set f (some { expected := n + 1, lastReceived := n })

theorem raiseGap_sends (s : State) (f : Fw) (want got : Word16) : Sends s (s.raiseGap f want got) := raise_sends s _ _

theorem raiseGap_event (s : State) (f : Fw) (want got : Word16) (ev : EventId) :
    (s.raiseGap f want got).event ev = if ev = .declGap then (s.event .declGap).next else s.event ev := raise_event s _ _ _

theorem raiseGap_count (s : State) (f : Fw) (want got : Word16) {c : Counter} (hc : c ≠ .txDrop) :
    (s.raiseGap f want got).count c = s.count c := raise_count s _ _ hc

theorem checkSequence_cases (s : State) (f : Fw) (n : Word16) :
    (gapAt s f n = false ∧ s.checkSequence f n = { s with decl := followed s f n }) ∨
      (gapAt s f n = true ∧ ∃ want, s.checkSequence f n = { s.raiseGap f want n with decl := followed s f n }) := by
  have hd : ∀ want, (s.raiseGap f want n).decl = s.decl := fun want => (raiseGap_sends s f want n).decl
  unfold State.checkSequence gapAt followed
  cases s.decl.get f with
  | none => exact .inl ⟨rfl, rfl⟩
  | some r =>
    by_cases hr : r.expected = n
    · exact .inl ⟨by simp [hr], by simp [hr]⟩
    · exact .inr ⟨by simp [hr], r.expected, by simp [hr, hd]⟩

/-- R51: the check sets the sender's record and otherwise only notifies. -/
theorem checkSequence_eq (s : State) (f : Fw) (n : Word16) : s.checkSequence f n = { s with
    ports := (s.checkSequence f n).ports, counters := (s.checkSequence f n).counters
    events := (s.checkSequence f n).events, decl := followed s f n } := by
  rcases checkSequence_cases s f n with ⟨-, h⟩ | ⟨-, want, h⟩ <;> rw [h]
  rw [raiseGap_sends s f want n]

theorem checkSequence_event (s : State) (f : Fw) (n : Word16) (ev : EventId) : (s.checkSequence f n).event ev =
    if ev = .declGap ∧ gapAt s f n = true then (s.event .declGap).next else s.event ev := by
  rcases checkSequence_cases s f n with ⟨hg, h⟩ | ⟨hg, want, h⟩ <;> rw [h, hg]
  · simp only [Bool.false_eq_true, and_false, if_false]
    rfl
  · simp only [and_true]
    exact raiseGap_event s f want n ev

theorem checkSequence_count (s : State) (f : Fw) (n : Word16) {c : Counter} (hc : c ≠ .txDrop) :
    (s.checkSequence f n).count c = s.count c := by
  rcases checkSequence_cases s f n with ⟨-, h⟩ | ⟨-, want, h⟩ <;> rw [h]
  · rfl
  · exact raiseGap_count s f want n hc

theorem checkSequence_decl (s : State) (f : Fw) (n : Word16) : (s.checkSequence f n).decl = followed s f n := by
  rw [checkSequence_eq]

theorem checkSequence_role (s : State) (f : Fw) (n : Word16) : (s.checkSequence f n).role = s.role := by
  rw [checkSequence_eq]

/-! ## An accepted DECLARE, as one event -/

theorem declareFrom_of_accepted {f : Fw} (c : Ccf) (h : s.acceptsDeclare f = true) :
    s.declareFrom f c = s.asEvent (fun v => (v.takeDeclare f c).finish) := by simp [State.declareFrom, h]

/-- R48: the senders the obligations speak of are those that the part accepts. -/
theorem acceptsDeclare_of {f : Fw} (h : s.role.active = f ∨ (s.role.source = some f ∧ s.role.kind = some .planned ∧
    (s.role.phase = .transfer ∨ s.role.phase = .settle) ∧ s.role.lateWindow.isRunning = true)) :
    s.acceptsDeclare f = true :=
  (acceptsDeclare_iff s f).mpr (h.imp_right (isLateSource_iff s f).mpr)

theorem exec_acceptedDeclare {f : Fw} {fr : Frame} (hg : goodCcf .declare fr = true) (ha : s.acceptsDeclare f = true) :
    exec (.declare f.inPort fr) s =
      .next ((s.inc (.framesIn f.inPort)).asEvent (fun v => (v.takeDeclare f (readCcf fr)).finish)) := by
  have ha : (s.inc (.framesIn f.inPort)).acceptsDeclare f = true := ha
  rw [exec_declare f hg, declareFrom_of_accepted _ ha]

/-- R51 to R64: after the sequence check nothing of the event moves a sequence record or the active role. -/
theorem acceptedDeclare_still (s : State) (f : Fw) (c : Ccf) :
    Still (s.checkSequence f c.seq) (s.asEvent (fun v => (v.takeDeclare f c).finish)) :=
  ((walkRecords_still f c.seq _ _ _ _).trans (add_held _ _ _).toStill).trans
    ((finish_still _).trans (sendRoleChanges_held _ _ _ _).toStill)

/-- R52: a DECLARE of no record is its sequence check. -/
theorem takeDeclare_of_empty {c : Ccf} (hc : c.records = 0) (f : Fw) :
    s.takeDeclare f c = (s.checkSequence f c.seq).add .declUnwalked 0 := by
  simp [State.takeDeclare, hc, State.walkRecords]

theorem takeDeclare_of_empty_quiet {c : Ccf} (hc : c.records = 0) (f : Fw) (hq : s.quiet) :
    s.asEvent (fun v => (v.takeDeclare f c).finish) = (s.checkSequence f c.seq).add .declUnwalked 0 := by
  have hk := checkSequence_eq s f c.seq
  have hf : (s.takeDeclare f c).finish = (s.checkSequence f c.seq).add .declUnwalked 0 := by
    rw [takeDeclare_of_empty hc]
    refine finish_of_quiet ?_
    unfold State.quiet at hq ⊢
    rw [hk]
    exact hq
  rw [asEvent_unmoved] <;> rw [hf]
  all_goals rw [hk]; rfl

/-! ## The walk of the records (R52) -/

/-- R52, R190: the bytes are one record, whole. -/
def WholeRecord (r : List Byte) : Prop :=
  (byteAt r 1 = 4#8 ∧ r.length = 36 + declBlob r) ∨ (byteAt r 1 = 6#8 ∧ r.length = 84 + declBlob r)

/-- R52: the record at the head of the bytes cannot be stepped over. -/
def StuckRecord (r : List Byte) : Prop :=
  (byteAt r 1 ≠ 4#8 ∧ byteAt r 1 ≠ 6#8) ∨ (byteAt r 1 = 4#8 ∧ r.length < 36 + declBlob r) ∨
    (byteAt r 1 = 6#8 ∧ r.length < 84 + declBlob r)

theorem byteAt_append_left {xs : List Byte} {i : Nat} (ys : List Byte) (h : i < xs.length) :
    byteAt (xs ++ ys) i = byteAt xs i := List.getD_append _ _ _ _ h

theorem word16At_append_left {xs : List Byte} {i : Nat} (ys : List Byte) (h : i + 1 < xs.length) :
    word16At (xs ++ ys) i = word16At xs i := by
  rw [word16At, byteAt_append_left ys (by omega), byteAt_append_left ys h]
  rfl

theorem WholeRecord.length_ge {r : List Byte} (h : WholeRecord r) : 36 ≤ r.length := by
  rcases h with ⟨-, h⟩ | ⟨-, h⟩ <;> omega

theorem declStep_of_whole {r : List Byte} (h : WholeRecord r) (more : List Byte) :
    declStep (r ++ more) = some r.length := by
  have hl := h.length_ge
  have hfam : byteAt (r ++ more) 1 = byteAt r 1 := byteAt_append_left more (by omega)
  have hblob : declBlob (r ++ more) = declBlob r := congrArg BitVec.toNat (word16At_append_left more (by omega))
  rcases h with ⟨hb, h⟩ | ⟨hb, h⟩ <;>
    simp [declStep, hfam, hb, familyOf, hblob, Family.declFixed, Family.tupleBytes, List.length_append, h] <;> omega

theorem familyOf_of_bad {b : Byte} (h4 : b ≠ 4#8) (h6 : b ≠ 6#8) : familyOf b = none := by simp [familyOf, h4, h6]

theorem declStep_of_stuck {bs : List Byte} (h : StuckRecord bs) : declStep bs = none := by
  rcases h with ⟨h4, h6⟩ | ⟨hb, h⟩ | ⟨hb, h⟩
  · simp [declStep, familyOf_of_bad h4 h6]
  all_goals simp [declStep, hb, familyOf, Family.declFixed, Family.tupleBytes, h]

/-- R53: a good record is of a known family and lies within the bytes. -/
theorem readDecl_length {bs : List Byte} {r : DeclRecord} (h : readDecl bs = some r) :
    familyOf (byteAt bs 1) = some r.family ∧ r.family.declFixed + declBlob bs ≤ bs.length := by
  unfold readDecl at h
  split at h
  · cases h
  · rename_i fam hfam
    split at h
    · cases h
    · split at h
      · rename_i hc
        obtain ⟨-, -, -, -, -, -, hlen⟩ := hc
        split at h
        · cases h; exact ⟨hfam, hlen⟩
        · cases h
      · cases h

/-- R53: a record that cannot be stepped over is no good record. -/
theorem readDecl_of_stuck {bs : List Byte} (h : StuckRecord bs) : readDecl bs = none := by
  cases hr : readDecl bs with
  | none => rfl
  | some r =>
    obtain ⟨hfam, hlen⟩ := readDecl_length hr
    rcases h with ⟨h4, h6⟩ | ⟨hb, h⟩ | ⟨hb, h⟩
    · rw [familyOf_of_bad h4 h6] at hfam; cases hfam
    all_goals
      rw [hb] at hfam
      rw [← Option.some.inj hfam] at hlen
      exact absurd hlen (Nat.not_le.mpr h)

/-- R52, R53: records applied in order, the first at position `pos`. -/
def applyRecords (s : State) (f : Fw) (seq : Word16) (pos : Nat) (rs : List (List Byte)) : State :=
  (rs.zipIdx pos).foldl (fun u x => u.applyRecord f seq x.2 x.1) s

theorem applyRecords_append_one (s : State) (f : Fw) (seq : Word16) (pos : Nat) (rs : List (List Byte)) (r : List Byte) :
    applyRecords s f seq pos (rs ++ [r]) = (applyRecords s f seq pos rs).applyRecord f seq (pos + rs.length) r := by
  simp [applyRecords, List.zipIdx_append]

theorem walkRecords_step {f : Fw} {seq : Word16} {n pos : Nat} {bs : List Byte} {len : Nat} (hb : bs ≠ [])
    (h : declStep bs = some len) : State.walkRecords f seq (n + 1) pos s bs =
      State.walkRecords f seq n (pos + 1) (s.applyRecord f seq pos (bs.take len)) (bs.drop len) := by
  cases bs with
  | nil => exact absurd rfl hb
  | cons b bs => simp only [State.walkRecords, h]

/-- R52: the walk over whole records, with what follows them still to be walked. -/
theorem walkRecords_of_whole {f : Fw} {seq : Word16} {rs : List (List Byte)} (hw : ∀ r ∈ rs, WholeRecord r) {n : Nat}
    (hn : rs.length ≤ n) (pos : Nat) (s : State) (more : List Byte) :
    State.walkRecords f seq n pos s (rs.flatten ++ more) =
      State.walkRecords f seq (n - rs.length) (pos + rs.length) (applyRecords s f seq pos rs) more := by
  induction rs generalizing n pos s with
  | nil => rfl
  | cons r rs ih =>
    obtain ⟨n, rfl⟩ : ∃ k, n = k + 1 := ⟨n - 1, by simp at hn; omega⟩
    have hr := hw r List.mem_cons_self
    have hlen := hr.length_ge
    have hne : r ++ (rs.flatten ++ more) ≠ [] :=
      List.append_ne_nil_of_left_ne_nil (List.ne_nil_of_length_pos (by omega)) _
    rw [List.flatten_cons, List.append_assoc, walkRecords_step hne (declStep_of_whole hr _), List.take_left,
      List.drop_left, ih (fun r hm => hw r (List.mem_cons_of_mem _ hm)) (by simpa using hn)]
    simp only [List.length_cons, Nat.add_sub_add_right, Nat.add_assoc, Nat.add_comm 1]
    rfl

theorem walkRecords_of_nil (f : Fw) (seq : Word16) (n pos : Nat) (s : State) :
    State.walkRecords f seq n pos s [] = (s, pos - 1) := by cases n <;> rfl

/-- R52, R53: a record that cannot be stepped over is refused, and ends the walk. -/
theorem walkRecords_of_stuck {f : Fw} {seq : Word16} {n : Nat} (hn : 0 < n) (pos : Nat) (s : State) {bs : List Byte}
    (hb : bs ≠ []) (h : StuckRecord bs) :
    State.walkRecords f seq n pos s bs = (s.applyRecord f seq pos bs, pos) := by
  obtain ⟨n, rfl⟩ : ∃ k, n = k + 1 := ⟨n - 1, by omega⟩
  rw [applyRecord_of_bad f seq pos (readDecl_of_stuck h)]
  cases bs with
  | nil => exact absurd rfl hb
  | cons b bs => simp only [State.walkRecords, declStep_of_stuck h]

/-- R52: the three ways the walk ends, each with the records it reached. -/
theorem walkRecords_reaches {f : Fw} {seq : Word16} {n : Nat} {rs : List (List Byte)} {more : List Byte}
    (hw : ∀ r ∈ rs, WholeRecord r) (s : State) :
    (rs.length = n → State.walkRecords f seq n 1 s (rs.flatten ++ more) = (applyRecords s f seq 1 rs, rs.length)) ∧
      (rs.length < n → more = [] →
        State.walkRecords f seq n 1 s (rs.flatten ++ more) = (applyRecords s f seq 1 rs, rs.length)) ∧
      (rs.length < n → more ≠ [] → StuckRecord more → State.walkRecords f seq n 1 s (rs.flatten ++ more) =
        (applyRecords s f seq 1 (rs ++ [more]), (rs ++ [more]).length)) := by
  refine ⟨fun hn => ?_, fun hn hm => ?_, fun hn hm hs => ?_⟩
  · rw [walkRecords_of_whole hw hn.le, hn, Nat.sub_self]
    simp [State.walkRecords]
  · rw [walkRecords_of_whole hw hn.le, hm, walkRecords_of_nil]
    simp
  · rw [walkRecords_of_whole hw hn.le, walkRecords_of_stuck (by omega) _ _ hm hs, applyRecords_append_one]
    simp [Nat.add_comm]

/-- R51, R52: what an accepted DECLARE does, the records its walk reaches given. -/
theorem exec_declare_reaches {f : Fw} {fr : Frame} {rs : List (List Byte)} (hg : goodCcf .declare fr = true)
    (ha : s.acceptsDeclare f = true)
    (h : ∀ v : State, State.walkRecords f (readCcf fr).seq (min (readCcf fr).records Config.declRecords) 1 v
      (readCcf fr).payload = (applyRecords v f (readCcf fr).seq 1 rs, rs.length)) :
    exec (.declare f.inPort fr) s = .next ((s.inc (.framesIn f.inPort)).asEvent (fun v =>
      ((applyRecords (v.checkSequence f (readCcf fr).seq) f (readCcf fr).seq 1 rs).add .declUnwalked
        ((readCcf fr).records - rs.length)).finish)) := by
  rw [exec_acceptedDeclare hg ha]
  simp only [State.takeDeclare, h]

/-- Settles O22: the sequence check, then the records in their order, then the tests and frames that end the event. -/
theorem acceptedDeclareSetsTheSequenceRecord : Obligations.AcceptedDeclareSetsTheSequenceRecord := by
  refine ⟨fun f fr s hg hs => ?_, fun f fr s hg hc ha hq => ?_, fun f fr s rs more hg hs => ?_, fun s f seq pos bs r hr => ?_⟩
  · let v := s.inc (.framesIn f.inPort)
    have k := acceptedDeclare_still v f (readCcf fr)
    have hrole := checkSequence_role v f (readCcf fr).seq
    have hdecl := k.decl.trans (checkSequence_decl v f _)
    refine ⟨_, exec_acceptedDeclare hg (acceptsDeclare_of hs), ?_, ?_, ?_, ?_⟩
    · rw [hdecl, followed, perFw_get_set, if_pos rfl]
    · rw [hdecl, followed, perFw_get_set, if_neg (fw_other_ne f)]
      rfl
    · exact k.active.trans (congrArg Role.active hrole)
    · exact k.epoch.trans (congrArg Role.epoch hrole)
  · let v := s.inc (.framesIn f.inPort)
    have hbody := takeDeclare_of_empty_quiet (s := v) hc f hq
    refine ⟨_, (exec_acceptedDeclare hg (acceptsDeclare_of (.inl ha))).trans (congrArg Host.Outcome.next hbody), ?_, ?_, ?_, ?_⟩
    · have hk := checkSequence_eq v f (readCcf fr).seq
      generalize v.checkSequence f (readCcf fr).seq = w at hk ⊢
      rw [hk]
      rfl
    · intro ev hev
      exact (checkSequence_event v f _ ev).trans (if_neg (fun h => hev h.1))
    · refine (checkSequence_event v f _ _).trans ?_
      simp only [true_and]
      rfl
    · intro c h1 h2 h3
      rw [count_add, if_neg h3, checkSequence_count v f _ h1, count_inc, if_neg h2]
  · intro c blob whole stuck reaches hp hw
    have hreach : ∀ xs, (∀ v : State, State.walkRecords f c.seq (min c.records 16) 1 v c.payload =
        (applyRecords v f c.seq 1 xs, xs.length)) → reaches xs := fun xs h =>
      exec_declare_reaches hg (acceptsDeclare_of hs) h
    have hwalk := fun v : State =>
      walkRecords_reaches (f := f) (seq := c.seq) (n := min c.records 16) (more := more) hw v
    rw [hp] at hreach
    exact ⟨fun hn => hreach rs (fun v => (hwalk v).1 hn), fun hn hm => hreach rs (fun v => (hwalk v).2.1 hn hm),
      fun hn hm hst => hreach (rs ++ [more]) (fun v => (hwalk v).2.2 hn hm hst)⟩
  · exact ⟨fun h t hput he => applyRecord_of_put seq pos hr hput he, fun hput => applyRecord_of_drop f seq pos hr hput⟩

end Sys2Proof.SessionDeclarations

/-! The declaration record that the part writes for an entry, read back (R53, R188, R190, R191). -/

namespace Sys2Proof.SessionDeclarations

open Sys2Proof Sys2Proof.Machine Sys2Proof.Laws Sys2Proof.SessionTable

/-! ## Fields read back -/

theorem byteAt_append_right {xs : List Byte} {n : Nat} (hn : xs.length = n) (ys : List Byte) (i : Nat) :
    byteAt (xs ++ ys) (n + i) = byteAt ys i := by
  rw [byteAt, List.getD_append_right _ _ _ _ (by omega), hn, Nat.add_sub_cancel_left]
  rfl

theorem word16At_append_right {xs : List Byte} {n : Nat} (hn : xs.length = n) (ys : List Byte) (i : Nat) :
    word16At (xs ++ ys) (n + i) = word16At ys i := by
  rw [word16At, Nat.add_assoc, byteAt_append_right hn, byteAt_append_right hn]
  rfl

theorem ipAt_append_right {xs : List Byte} {n : Nat} (hn : xs.length = n) (ys : List Byte) (k : Nat) :
    ipAt (xs ++ ys) n k = ipAt ys 0 k := by rw [ipAt, List.drop_left' hn]; rfl

/-- A 16-bit number's two bytes spell it. -/
theorem word16At_bytes {n : Nat} (hn : n < 65536) (more : List Byte) :
    word16At (BitVec.ofNat 8 (n / 256) :: BitVec.ofNat 8 n :: more) 0 = BitVec.ofNat 16 n := by
  refine BitVec.eq_of_toNat_eq ?_
  rw [word16At_pair]
  simp only [BitVec.toNat_ofNat]
  omega

theorem word16At_beBytes (w : Word16) (more : List Byte) : word16At (beBytes 2 w.toNat ++ more) 0 = w := by
  have h : beBytes 2 w.toNat = [BitVec.ofNat 8 (w.toNat / 256), BitVec.ofNat 8 w.toNat] := by simp [beBytes]
  rw [h]
  exact (word16At_bytes w.isLt more).trans (by simp)

/-- R188: an address of the family reads back from its bytes. -/
theorem ipAt_beBytes {fam : Family} {a : IpAddr} (h : fam = .v4 → a.toNat < 2 ^ 32) (more : List Byte) :
    ipAt (beBytes fam.addrBytes a.toNat ++ more) 0 fam.addrBytes = a := by
  have hfits : a.toNat < 256 ^ fam.addrBytes := by
    cases fam with
    | v4 => exact h rfl
    | v6 => exact a.isLt
  rw [ipAt, List.drop_zero, List.take_left' (length_beBytes _ _), beNat_beBytes, Nat.mod_eq_of_lt hfits]
  simp

/-! ## Tuples read back -/

theorem length_endpointBytes (fam : Family) (x : Endpoint) : (endpointBytes fam x).length = fam.addrBytes + 2 := by
  simp [endpointBytes, length_beBytes]

theorem length_tupleBytes (fam : Family) (t : Tuple) : (tupleBytes fam t).length = fam.tupleBytes := by
  cases fam <;> simp [tupleBytes, length_endpointBytes, Family.addrBytes, Family.tupleBytes]

theorem endpoint_readBack {fam : Family} {x : Endpoint} (h : fam = .v4 → x.addr.toNat < 2 ^ 32) (more : List Byte) :
    ipAt (endpointBytes fam x ++ more) 0 fam.addrBytes = x.addr ∧
      word16At (endpointBytes fam x ++ more) fam.addrBytes = x.port := by
  rw [endpointBytes, List.append_assoc]
  exact ⟨ipAt_beBytes h _,
    (word16At_append_right (length_beBytes _ _) _ 0).trans (word16At_beBytes x.port more)⟩

/-- R188: a tuple reads back from its bytes, its local endpoint first. -/
theorem readTuple_tupleBytes {fam : Family} {t : Tuple} (hl : fam = .v4 → t.loc.addr.toNat < 2 ^ 32)
    (hr : fam = .v4 → t.rem.addr.toNat < 2 ^ 32) (more : List Byte) : readTuple fam (tupleBytes fam t ++ more) = t := by
  obtain ⟨hla, hlp⟩ := endpoint_readBack hl (endpointBytes fam t.rem ++ more)
  obtain ⟨hra, hrp⟩ := endpoint_readBack hr more
  have hlen := length_endpointBytes fam t.loc
  have hoff : 2 * fam.addrBytes + 2 = fam.addrBytes + 2 + fam.addrBytes := by omega
  rw [tupleBytes, List.append_assoc, readTuple, hla, hlp, ipAt_append_right hlen, hra, hoff, word16At_append_right hlen, hrp]

/-! ## The head of a declaration record (R190) -/

theorem familyOf_code (fam : Family) : familyOf (BitVec.ofNat 8 fam.code) = some fam := by cases fam <;> rfl

theorem protoOf_code (fam : Family) (pr : Proto) : protoOf fam (BitVec.ofNat 8 (pr.code fam)) = some pr := by
  cases fam <;> cases pr <;> rfl

theorem bitsByte_pair (b0 b1 : Bool) :
    (bitsByte [b0, b1]).getLsbD 0 = b0 ∧ (bitsByte [b0, b1]).getLsbD 1 = b1 := by cases b0 <;> cases b1 <;> decide

theorem toNat_byte {n : Nat} (h : n < 256) : (BitVec.ofNat 8 n).toNat = n := by
  rw [BitVec.toNat_ofNat]; exact Nat.mod_eq_of_lt h

/-- R190: the 12 bytes before the tuples. -/
def declHead (e : Entry) (d : Declared) : List Byte :=
  [1#8, BitVec.ofNat 8 e.family.code, BitVec.ofNat 8 (e.proto.code e.family), BitVec.ofNat 8 e.agingClass.val,
    BitVec.ofNat 8 d.fwState, bitsByte [(scalePart e.tcp).1, e.initiator == .rem], BitVec.ofNat 8 (scalePart e.tcp).2.1,
    BitVec.ofNat 8 (scalePart e.tcp).2.2, BitVec.ofNat 8 (d.policy.toNat / 256), BitVec.ofNat 8 d.policy.toNat,
    BitVec.ofNat 8 (min d.blob.length 65535 / 256), BitVec.ofNat 8 (min d.blob.length 65535)]

theorem declPart_eq (e : Entry) (d : Declared) :
    declPart e d = declHead e d ++ (tupleBytes e.family d.inside ++ tupleBytes e.family e.outside) := by
  simp [declPart, declHead, be1, be2, beBytes]

/-- R191: the scale pair written for an entry is the one its tracking knows. -/
theorem scalePart_eq (x : Option Tracking) :
    (if (scalePart x).1 = true then some (scalePart x).2 else none) =
      x.bind (fun t => if t.scaleKnown then some (t.scaleOut, t.scaleIn) else none) := by
  cases x with
  | none => rfl
  | some t => cases h : t.scaleKnown <;> simp [scalePart, h]

theorem scalePart_le {x : Option Tracking} (h : ∀ t, x = some t → t.scaleOut ≤ 14 ∧ t.scaleIn ≤ 14) :
    (scalePart x).2.1 ≤ 14 ∧ (scalePart x).2.2 ≤ 14 := by
  cases x with
  | none => exact ⟨by decide, by decide⟩
  | some t =>
    unfold scalePart
    dsimp only
    split
    · exact h t rfl
    · exact ⟨by decide, by decide⟩

section
variable {e : Entry} {d : Declared} (more : List Byte)

theorem declBlob_declHead (h : d.blob.length ≤ 64) : declBlob (declHead e d ++ more) = d.blob.length := by
  have hw : word16At (declHead e d ++ more) 10 = BitVec.ofNat 16 (min d.blob.length 65535) :=
    word16At_bytes (by omega) more
  rw [declBlob, hw, BitVec.toNat_ofNat]
  omega

theorem policy_declHead : word16At (declHead e d ++ more) 8 = d.policy := by
  have hw : word16At (declHead e d ++ more) 8 = BitVec.ofNat 16 d.policy.toNat :=
    word16At_bytes d.policy.isLt ((declHead e d ++ more).drop 10)
  rw [hw, BitVec.ofNat_toNat, BitVec.setWidth_eq]

theorem declScales_declHead (h : ∀ x, e.tcp = some x → x.scaleOut ≤ 14 ∧ x.scaleIn ≤ 14) :
    declScales (declHead e d ++ more) =
      e.tcp.bind (fun x => if x.scaleKnown then some (x.scaleOut, x.scaleIn) else none) := by
  obtain ⟨ho, hi⟩ := scalePart_le h
  have h5 : (byteAt (declHead e d ++ more) 5).getLsbD 0 = (scalePart e.tcp).1 := (bitsByte_pair _ _).1
  have h6 : (byteAt (declHead e d ++ more) 6).toNat = (scalePart e.tcp).2.1 := toNat_byte (by omega)
  have h7 : (byteAt (declHead e d ++ more) 7).toNat = (scalePart e.tcp).2.2 := toNat_byte (by omega)
  rw [declScales, h5, h6, h7]
  exact scalePart_eq e.tcp

theorem initiator_declHead :
    (if (byteAt (declHead e d ++ more) 5).getLsbD 1 then Initiator.rem else Initiator.loc) = e.initiator := by
  have h5 : (byteAt (declHead e d ++ more) 5).getLsbD 1 = (e.initiator == .rem) := (bitsByte_pair _ _).2
  rw [h5]
  cases e.initiator <;> rfl

end

/-- R53: the form of a good PUT, and the record it reads as. -/
theorem readDecl_of_put {bs : List Byte} {fam : Family} {pr : Proto} (hput : byteAt bs 0 = 1#8)
    (hfam : familyOf (byteAt bs 1) = some fam) (hpr : protoOf fam (byteAt bs 2) = some pr)
    (hcls : (byteAt bs 3).toNat < 4) (hfw : (byteAt bs 4).toNat ≤ 15) (hblob : declBlob bs ≤ 64) (hmod : declBlob bs % 4 = 0)
    (hin : echoPortsOk pr (declInside fam bs) = true) (hout : echoPortsOk pr (declOutside fam bs) = true)
    (hlen : fam.declFixed + declBlob bs ≤ bs.length) : readDecl bs = some
      { put := true, family := fam, proto := pr, agingClass := ⟨(byteAt bs 3).toNat, hcls⟩, fwState := (byteAt bs 4).toNat
        scales := declScales bs, initiator := if (byteAt bs 5).getLsbD 1 then .rem else .loc, policy := word16At bs 8
        inside := declInside fam bs, outside := declOutside fam bs
        blob := (bs.drop fam.declFixed).take (declBlob bs) } := by
  unfold readDecl
  simp only [hfam, hpr]
  rw [if_pos ⟨.inl hput, hblob, hmod, hfw, hin, hout, hlen⟩, dif_pos hcls, hput]
  rfl

theorem echoPortsOk_of {pr : Proto} {t : Tuple} (h : pr = .echo → t.loc.port = t.rem.port) : echoPortsOk pr t = true := by
  cases pr with
  | echo => simp [echoPortsOk, h rfl]
  | tcp => rfl
  | udp => rfl

/-! ## The whole record read back -/

/-- R190: a declaration record's bytes: its head, its tuples and its blob. -/
def declBytes (e : Entry) (d : Declared) : List Byte :=
  declHead e d ++ (tupleBytes e.family d.inside ++ (tupleBytes e.family e.outside ++ d.blob))

section
variable {e : Entry} {d : Declared}

theorem declPart_blob (e : Entry) (d : Declared) : declPart e d ++ d.blob = declBytes e d := by
  rw [declPart_eq, declBytes, List.append_assoc, List.append_assoc]

theorem length_declPart (e : Entry) (d : Declared) : (declPart e d).length = e.family.declFixed := by
  rw [declPart_eq]
  simp [declHead, length_tupleBytes, Family.declFixed]
  omega

theorem length_declBytes (e : Entry) (d : Declared) : (declBytes e d).length = e.family.declFixed + d.blob.length := by
  rw [← declPart_blob, List.length_append, length_declPart]

theorem blob_declBytes (e : Entry) (d : Declared) :
    ((declBytes e d).drop e.family.declFixed).take d.blob.length = d.blob := by
  rw [← declPart_blob, List.drop_left' (length_declPart e d), List.take_length]

theorem inside_declBytes (hl : e.family = .v4 → d.inside.loc.addr.toNat < 2 ^ 32)
    (hr : e.family = .v4 → d.inside.rem.addr.toNat < 2 ^ 32) : declInside e.family (declBytes e d) = d.inside :=
  readTuple_tupleBytes hl hr _

theorem outside_declBytes (hl : e.family = .v4 → e.outside.loc.addr.toNat < 2 ^ 32)
    (hr : e.family = .v4 → e.outside.rem.addr.toNat < 2 ^ 32) : declOutside e.family (declBytes e d) = e.outside := by
  have hfront : (declHead e d ++ tupleBytes e.family d.inside).length = 12 + e.family.tupleBytes := by
    rw [List.length_append, length_tupleBytes]; rfl
  rw [declOutside, declBytes, ← List.append_assoc, List.drop_left' hfront]
  exact readTuple_tupleBytes hl hr _

end

/-- Settles O10: each field is read from the bytes that were written for it. -/
theorem declarationRecordReadsBack : Obligations.DeclarationRecordReadsBack := by
  intro e d hfw hblob hmod haddr hscale hecho
  simp only [List.forall_mem_cons, List.not_mem_nil, false_implies, implies_true, and_true] at haddr
  obtain ⟨hil, hir, hol, hor⟩ := haddr
  have hin := inside_declBytes hil hir
  have hout := outside_declBytes (d := d) hol hor
  have hcls : (byteAt (declBytes e d) 3).toNat = e.agingClass.val := toNat_byte (by omega)
  have hst : (byteAt (declBytes e d) 4).toNat = d.fwState := toNat_byte (by omega)
  have hb : declBlob (declBytes e d) = d.blob.length := declBlob_declHead _ hblob
  have hpol : word16At (declBytes e d) 8 = d.policy := policy_declHead _
  have hsc : declScales (declBytes e d) = _ := declScales_declHead _ hscale
  have hini : (if (byteAt (declBytes e d) 5).getLsbD 1 then Initiator.rem else .loc) = e.initiator := initiator_declHead _
  rw [declPart_blob, readDecl_of_put (bs := declBytes e d) rfl (familyOf_code e.family) (protoOf_code e.family e.proto)
    (hcls ▸ e.agingClass.isLt) (hst ▸ hfw) (hb ▸ hblob) (hb ▸ hmod) (hin ▸ echoPortsOk_of (fun h => (hecho h).1))
    (hout ▸ echoPortsOk_of (fun h => (hecho h).2)) (by rw [hb, length_declBytes])]
  simp only [hcls, hst, hin, hout, hb, blob_declBytes, hpol, hsc, hini]

end Sys2Proof.SessionDeclarations

/-! The marking at TRANSFER (R154): what it makes of one entry, and how many it marks. -/

namespace Sys2Proof.Cutover

open Sys2Proof Sys2Proof.Machine Sys2Proof.Laws Sys2Proof.SessionTable

variable {s t u : State}

/-! ## What the marking may touch -/

/-- From `s` to `t` only entries, the lanes with the walk's count, and the marked count may differ. -/
def Marks (s t : State) : Prop :=
  t = { s with
    table := { s.table with entries := t.table.entries }
    mirror := { s.mirror with urgent := t.mirror.urgent, normal := t.mirror.normal, walkPending := t.mirror.walkPending }
    role := { s.role with marked := t.role.marked } }

theorem Marks.refl (s : State) : Marks s s := rfl

theorem Marks.trans (h : Marks s t) (k : Marks t u) : Marks s u := by unfold Marks at *; rw [k, h]

theorem marks_of_lanes (h : Lanes s t) : Marks s t := by unfold Lanes at h; unfold Marks; rw [h]

theorem Marks.foldl {α : Type} {g : State → α → State} (hg : ∀ v x, Marks v (g v x)) (xs : List α) (s : State) :
    Marks s (xs.foldl g s) := by
  induction xs generalizing s with
  | nil => exact .refl s
  | cons x xs ih => exact (hg s x).trans (ih _)

theorem Marks.role (h : Marks s t) : t.role = { s.role with marked := t.role.marked } := congrArg State.role h

theorem Marks.events (h : Marks s t) : t.events = s.events := by rw [h]

theorem Marks.mirrorState (h : Marks s t) : t.mirror.state = s.mirror.state := by rw [h]

theorem setMark_marks (s : State) (h : Nat) : Marks s (s.setMark h) :=
  Marks.trans (t := { s with role := { s.role with marked := s.role.marked + 1 } }) rfl
    (marks_of_lanes (modifyEntry_lanes _ h _))

theorem pushMarked_lanes (s : State) (h : Nat) (m : MirrorPart) : Lanes s (s.pushMarked h m) := by
  unfold State.pushMarked
  split
  · exact toUrgentTail_lanes s h
  · exact .refl s
  · exact .ite (.refl s) (lanePlace_lanes s h _ _ _)

theorem moveBlocker_lanes (s : State) (h : Nat) : Lanes s (s.moveBlocker h) := by
  unfold State.moveBlocker
  split
  · exact .refl s
  · exact .ite (toUrgentTail_lanes s h) (.refl s)

/-! ## One entry examined -/

/-- R154: the Mirror Engine's fields of an entry that has been marked. -/
def pushedPart (m : MirrorPart) : MirrorPart :=
  match m.lane, m.queued with
  | some .normal, some k => { m with lane := some .urgent, queued := some k }
  | some _, _ => m
  | none, _ =>
    if m.inflight.isSome then m
    else { m with lane := some .urgent, queued := some (if m.peer = .current then .refresh else .declare) }

section
variable {m : MirrorPart}

theorem pushedPart_of_normal {k : RecKind} (hl : m.lane = some .normal) (hq : m.queued = some k) :
    pushedPart m = { m with lane := some .urgent, queued := some k } := by simp [pushedPart, hl, hq]

theorem pushedPart_of_normal_none (hl : m.lane = some .normal) (hq : m.queued = none) : pushedPart m = m := by
  simp [pushedPart, hl, hq]

theorem pushedPart_of_urgent (hl : m.lane = some .urgent) : pushedPart m = m := by simp [pushedPart, hl]

theorem pushedPart_of_inflight (hl : m.lane = none) (hi : m.inflight.isSome = true) : pushedPart m = m := by
  simp [pushedPart, hl, hi]

theorem pushedPart_of_idle (hl : m.lane = none) (hi : m.inflight.isSome ≠ true) : pushedPart m =
    { m with lane := some .urgent, queued := some (if m.peer = .current then .refresh else .declare) } := by
  simp [pushedPart, hl, hi]

end

/-- R154: the entry at the handle is one that the marking rule names. -/
def dueAt (s : State) (h : Nat) : Bool :=
  match s.entry? h with
  | some e => e.toBeMarked
  | none => false

theorem dueAt_of_entry {h : Nat} {e : Entry} (he : s.entry? h = some e) : dueAt s h = e.toBeMarked := by
  simp [dueAt, he]

theorem dueAt_iff {h : Nat} : dueAt s h = true ↔ ∃ e, s.entry? h = some e ∧ e.toBeMarked = true := by
  cases he : s.entry? h <;> simp [dueAt, he]

/-- The marking rule names LIVE entries alone. -/
theorem live_of_toBeMarked {e : Entry} (h : e.toBeMarked = true) : ∃ d m l, e.body = .live d m l := by
  cases hb : e.body with
  | live d m l => exact ⟨d, m, l, rfl⟩
  | tentative => simp [Entry.toBeMarked, Entry.mirror?, hb] at h
  | retiring d m bs => simp [Entry.toBeMarked, Entry.mirror?, Entry.live?, hb] at h

theorem toBeMarked_iff {e : Entry} {d : Declared} {m : MirrorPart} {l : LivePart} (hb : e.body = .live d m l) :
    e.toBeMarked = true ↔ l.unprotected = false ∧
      (m.peer ≠ .current ∨ m.queued ≠ none ∨ m.inflight ≠ none ∨ e.anyDrift = true) := by
  simp [Entry.toBeMarked, Entry.mirror?, Entry.live?, hb, Option.isSome_iff_ne_none, or_assoc]

theorem markOne_of_undue {h : Nat} (hd : dueAt s h = false) : s.markOne h = s := by
  unfold State.markOne
  split
  · rfl
  · rename_i e he
    rw [dueAt_of_entry he] at hd
    split
    · simp [hd]
    · rfl

theorem markOne_of_due {h : Nat} {e : Entry} {d : Declared} {m : MirrorPart} {l : LivePart}
    (he : s.entry? h = some (e.withLive d m l)) (hd : dueAt s h = true) :
    s.markOne h = (s.setMark h).pushMarked h m := by
  rw [dueAt_of_entry he] at hd
  have hm : (e.withLive d m l).mirror? = some m := rfl
  simp only [State.markOne, he, hm, hd, if_true]

theorem markOne_cases {P : State → Prop} (s : State) (h : Nat) (h0 : dueAt s h = false → P s)
    (h1 : dueAt s h = true → ∀ m, P ((s.setMark h).pushMarked h m)) : P (s.markOne h) := by
  cases hd : dueAt s h with
  | false => rw [markOne_of_undue hd]; exact h0 hd
  | true =>
    obtain ⟨e, he, hm⟩ := dueAt_iff.mp hd
    obtain ⟨d, m, l, hb⟩ := live_of_toBeMarked hm
    rw [markOne_of_due (he.trans (congrArg some (eq_withLive hb))) hd]
    exact h1 hd m

theorem markOne_marks (s : State) (h : Nat) : Marks s (s.markOne h) :=
  markOne_cases s h (fun _ => .refl s) (fun _ m => (setMark_marks s h).trans (marks_of_lanes (pushMarked_lanes _ h m)))

theorem markOne_marked (s : State) (h : Nat) :
    (s.markOne h).role.marked = s.role.marked + if dueAt s h = true then 1 else 0 := by
  refine markOne_cases (P := fun v => v.role.marked = _) s h (fun hd => by simp [hd]) (fun hd m => ?_)
  rw [(pushMarked_lanes _ h m).role, setMark_eq, if_pos hd]

theorem pushMarked_others (s : State) (h : Nat) (m : MirrorPart) : s.othersKept (s.pushMarked h m) h := by
  unfold State.pushMarked
  split
  · exact toUrgentTail_others s h
  · exact othersKept_refl s h
  · exact othersKept_ite (othersKept_refl s h) (lanePlace_others s h _ _ _)

theorem setMark_others (s : State) (h : Nat) : s.othersKept (s.setMark h) h :=
  modifyEntry_others { s with role := { s.role with marked := s.role.marked + 1 } } h _

theorem markOne_others (s : State) (h : Nat) : s.othersKept (s.markOne h) h :=
  markOne_cases (P := fun v => s.othersKept v h) s h (fun _ => othersKept_refl s h)
    (fun _ m => othersKept_trans (setMark_others s h) (pushMarked_others _ h m))

theorem pushMarked_self {h : Nat} {e : Entry} {d : Declared} {m : MirrorPart} {l : LivePart}
    (he : s.entry? h = some (e.withLive d m l)) :
    (s.pushMarked h m).entry? h = some (e.withLive d (pushedPart m) l) := by
  unfold State.pushMarked
  split
  · rename_i hl
    cases hq : m.queued with
    | none => rw [pushedPart_of_normal_none hl hq, State.toUrgentTail, queuedOf_of_live he, hq]; exact he
    | some k =>
      rw [pushedPart_of_normal hl hq, toUrgentTail_of_queued ((queuedOf_of_live he).trans hq)]
      exact lanePlace_live he _ _ _
  · rename_i hl
    rw [pushedPart_of_urgent hl]
    exact he
  · rename_i hl
    split
    · rename_i hi
      rw [pushedPart_of_inflight hl hi]
      exact he
    · rename_i hi
      rw [pushedPart_of_idle hl hi]
      exact lanePlace_live he _ _ _

/-- R154: the entry that the marking has examined, a mark set where the rule names it. -/
theorem markOne_self {h : Nat} {e : Entry} {d : Declared} {m : MirrorPart} {l : LivePart}
    (he : s.entry? h = some (e.withLive d m l)) : (s.markOne h).entry? h = some
      (if (e.withLive d m l).toBeMarked then e.withLive d (pushedPart m) { l with marked := true } else e.withLive d m l) := by
  have hd := dueAt_of_entry he
  cases hm : (e.withLive d m l).toBeMarked with
  | false => rw [markOne_of_undue (hd.trans hm)]; exact he
  | true =>
    rw [markOne_of_due he (hd.trans hm)]
    exact pushMarked_self ((setMark_self s h).trans (by rw [he]; rfl))

/-! ## The fold over the table -/

theorem markOne_keepsAt {g h : Nat} (hg : h ≠ g) (v : State) : KeepsAt g v (v.markOne h) := fun hv =>
  ⟨(markOne_held v h).table hv, markOne_others v h g (Ne.symm hg)⟩

/-- A LIVE entry has no blocks list, and is not moved as a blocker. -/
theorem moveBlocker_keeps {g : Nat} {x : Entry} (hx : s.entry? g = some x) (hp : x.phase ≠ .retiring) (h : Nat) :
    (s.moveBlocker h).entry? g = some x := by
  unfold State.moveBlocker
  split
  · exact hx
  · rename_i e he
    split
    · rename_i hc
      obtain ⟨-, hb⟩ := hc
      by_cases hg : g = h
      · subst hg
        have hex : e = x := Option.some.inj (he.symm.trans hx)
        subst hex
        have hnil : e.blocks = [] := by cases hbody : e.body <;> simp_all [Entry.blocks, Entry.phase]
        simp [State.blocksMarked, hnil] at hb
      · exact (toUrgentTail_others s h g hg).trans hx
    · exact hx

theorem moveBlockers_keep {g : Nat} {x : Entry} (hx : s.entry? g = some x) (hp : x.phase ≠ .retiring) (hs : List Nat) :
    (hs.foldl State.moveBlocker s).entry? g = some x := by
  induction hs generalizing s with
  | nil => exact hx
  | cons h hs ih => exact ih (moveBlocker_keeps hx hp h)

/-- R154: what the marking leaves of a LIVE entry. -/
theorem markEntries_live (hok : s.tableOk) {h : Nat} {e : Entry} {d : Declared} {m : MirrorPart} {l : LivePart}
    (he : s.entry? h = some (e.withLive d m l)) : s.markEntries.entry? h = some
      (if (e.withLive d m l).toBeMarked then e.withLive d (pushedPart m) { l with marked := true } else e.withLive d m l) := by
  obtain ⟨v, h1, h2⟩ := (foldl_at (R := KeepsAt h) (keepsAt_refl h) keepsAt_trans (fun w k hk => markOne_keepsAt hk w)
    (handles_nodup hok) s).2 (mem_handles he)
  obtain ⟨hv, hve⟩ := h1 hok
  have hfold := (h2 ((markOne_held v h).table hv)).2.trans (markOne_self (hve.trans he))
  refine moveBlockers_keep hfold ?_ _
  split <;> exact nofun

theorem markEntries_marks (s : State) : Marks s s.markEntries :=
  (Marks.foldl markOne_marks _ s).trans (.foldl (fun v h => marks_of_lanes (moveBlocker_lanes v h)) _ _)

/-- R154: the marked count rises by the number of handles at which an entry is named. -/
theorem foldl_markOne_marked {hs : List Nat} (hn : hs.Nodup) (s : State) :
    (hs.foldl State.markOne s).role.marked = s.role.marked + (hs.filter (dueAt s)).length := by
  induction hs generalizing s with
  | nil => rfl
  | cons h hs ih =>
    obtain ⟨hh, hn⟩ := List.nodup_cons.mp hn
    have hrest : hs.filter (dueAt (s.markOne h)) = hs.filter (dueAt s) := List.filter_congr (fun g hg => by
      simp only [dueAt, markOne_others s h g (fun e => hh (e ▸ hg))])
    rw [List.foldl_cons, ih hn, hrest, markOne_marked, List.filter_cons, apply_ite List.length, List.length_cons]
    split <;> omega

theorem markEntries_marked (hok : s.tableOk) :
    s.markEntries.role.marked = s.role.marked + (s.handles.filter (dueAt s)).length := by
  have hblock : ∀ (hs : List Nat) (v : State), (hs.foldl State.moveBlocker v).role = v.role := fun hs v =>
    (Lanes.foldl moveBlocker_lanes hs v).role
  exact (congrArg Role.marked (hblock _ _)).trans (foldl_markOne_marked (handles_nodup hok) s)

end Sys2Proof.Cutover

/-! The TRANSFER event (R153) and what ends QUIESCE: a FLUSHED from the source (R65) and the quiesce timer (R139, R152). -/

namespace Sys2Proof.Cutover

open Sys2Proof Sys2Proof.Machine Sys2Proof.Laws Sys2Proof.SessionTable Sys2Proof.SessionDeclarations

variable {s t u : State}

/-! ## The roles after the active role has moved -/

/-- From `s` to `t` the roles have gone on as the rest of a TRANSFER event may take them: the active role, the cutover and the
other timers stay, and QUIESCE is not entered. -/
structure Onward (s t : State) : Prop where
  role : t.role = { s.role with
    phase := t.role.phase, lateWindow := t.role.lateWindow, cutLimit := t.role.cutLimit, marked := t.role.marked
    record := t.role.record }
  phase : s.role.phase ≠ .quiesce → t.role.phase ≠ .quiesce

theorem Onward.trans (h : Onward s t) (k : Onward t u) : Onward s u :=
  ⟨by rw [k.role, h.role], fun hp => k.phase (h.phase hp)⟩

theorem onward_of_role (h : t.role = s.role) : Onward s t := ⟨by rw [h], fun hp => by rwa [h]⟩

theorem Onward.refl (s : State) : Onward s s := onward_of_role rfl

theorem freeEntry_onward (s : State) (h : Nat) : Onward s (s.freeEntry h) := by
  have hr := freeEntry_role s h
  split at hr
  · refine ⟨by rw [hr, unmarkedRole_eq], fun hp => ?_⟩
    rw [hr]
    rcases unmarkedRole_cases s.role with hc | ⟨-, hc⟩ <;> rw [hc]
    · exact hp
    · nofun
  · exact onward_of_role hr

theorem freeAll_onward (s : State) (hs : List Nat) : Onward s (s.freeAll hs) := by
  unfold State.freeAll
  induction hs generalizing s with
  | nil => exact .refl s
  | cons h hs ih => exact (freeEntry_onward s h).trans (ih _)

theorem marks_onward (h : Marks s t) : Onward s t :=
  ⟨by rw [h.role], fun hp => by rw [h.role]; exact hp⟩

theorem toSettle_onward (s : State) : Onward s s.toSettle := by
  have hr := toSettle_role s
  split at hr
  · exact ⟨by rw [hr], fun _ => by rw [hr]; nofun⟩
  · exact onward_of_role hr

theorem abandonMirror_onward (s : State) (target : Option Fw) (st : MirrorState) (cursor : Nat) (begin : Bool) :
    Onward s (s.abandonMirror target st cursor begin) :=
  (show Onward s (abandoned s target st cursor begin) from onward_of_role rfl).trans (freeAll_onward _ _)

theorem retarget_onward (s : State) : Onward s s.retarget := by
  rcases retarget_cases s with ⟨h, -⟩ | ⟨f, -, h⟩ | ⟨-, h⟩ <;> rw [h]
  · exact .refl s
  · exact (abandonMirror_onward s _ _ _ _).trans (onward_of_role (sendBatch_sends _ _ _ _).role)
  · exact abandonMirror_onward s _ _ _ _

theorem settleEnded_onward (s : State) : Onward s (settleEnded s) := by
  have hr := settleEnded_role s
  exact ⟨by rw [hr], fun _ => by rw [hr]; nofun⟩

/-- R116, R160: the tests that end the event of a PUSHING mirror: SETTLE ends, or nothing does. -/
theorem finish_of_pushing (h : s.mirror.state = .pushing) :
    (s.settleDone = false ∧ s.finish = s) ∨ (s.settleDone = true ∧ s.finish = (settleEnded s).retarget) := by
  cases hd : s.settleDone with
  | false => exact .inl ⟨rfl, finish_of_undone hd (walkDone_of_state (by rw [h]; nofun))⟩
  | true => exact .inr ⟨rfl, finish_of_settleDone hd (.inl (by rw [h]; exact ⟨nofun, nofun⟩))⟩

theorem finish_onward (h : s.mirror.state = .pushing) : Onward s s.finish := by
  rcases finish_of_pushing h with ⟨-, e⟩ | ⟨-, e⟩ <;> rw [e]
  · exact .refl s
  · exact (settleEnded_onward s).trans (retarget_onward _)

theorem finish_event_of_pushing (h : s.mirror.state = .pushing) {ev : EventId} (h1 : ev ≠ .tableLevel) (h2 : ev ≠ .parkLevel)
    (h3 : ev ≠ .cutoverEnd) : s.finish.event ev = s.event ev := by
  rcases finish_of_pushing h with ⟨-, e⟩ | ⟨-, e⟩ <;> rw [e]
  rw [retarget_event _ h1 h2, settleEnded_event, if_neg h3]

/-! ## Phases that only end -/

/-- From `s` to `t` a canonical table stays so, and each entry keeps its phase or is freed. -/
def Thins (s t : State) : Prop := s.tableOk → t.tableOk ∧ ∀ g, t.phase g = s.phase g ∨ t.phase g = .free

theorem Thins.trans (h : Thins s t) (k : Thins t u) : Thins s u := fun hs => by
  obtain ⟨ht, hp⟩ := h hs
  obtain ⟨hu, kp⟩ := k ht
  refine ⟨hu, fun g => (kp g).elim (fun hk => ?_) .inr⟩
  rw [hk]
  exact hp g

theorem thins_of_held (h : Held s t) : Thins s t := fun hs => ⟨h.table hs, fun g => .inl (phase_of_map (h.phase? hs g))⟩

theorem freeEntry_thins (s : State) (h : Nat) : Thins s (s.freeEntry h) := fun hs => by
  refine ⟨(freeEntry_still s h).table hs, fun g => ?_⟩
  cases he : s.entry? h with
  | none => rw [freeEntry_of_none he]; exact .inl rfl
  | some e =>
    obtain ⟨h1, h2, -⟩ := freeEntry_table hs he
    by_cases hg : g = h
    · subst hg; exact .inr (phase_of_none h1)
    · rw [phase_congr (h2 g hg)]
      unfold unblocked
      split
      · exact .inl (phase_releaseWaiters s _ g)
      · exact .inl ((phase_leaveBlocks _ h g).trans (phase_releaseWaiters s _ g))

theorem freeAll_thins (s : State) (hs : List Nat) : Thins s (s.freeAll hs) := by
  unfold State.freeAll
  induction hs generalizing s with
  | nil => exact thins_of_held (.refl s)
  | cons h hs ih => exact (freeEntry_thins s h).trans (ih _)

theorem abandonMirror_thins (s : State) (target : Option Fw) (st : MirrorState) (cursor : Nat) (begin : Bool) :
    Thins s (s.abandonMirror target st cursor begin) :=
  (thins_of_held ((mapEntries_held s phase_forget).trans (mirror_held _ _))).trans (freeAll_thins _ _)

theorem retarget_thins (s : State) : Thins s s.retarget := by
  rcases retarget_cases s with ⟨h, -⟩ | ⟨f, -, h⟩ | ⟨-, h⟩ <;> rw [h]
  · exact thins_of_held (.refl s)
  · exact (abandonMirror_thins s _ _ _ _).trans (thins_of_held ((sendBatch_held _ _ _ _).trans (inc_held _ _)))
  · exact abandonMirror_thins s _ _ _ _

theorem settleEnded_held (s : State) : Held s (settleEnded s) := by
  unfold settleEnded
  refine .trans ((clearAllMarks_held s .released).trans ?_) (raise_held _ _ _)
  exact role_held _ rfl rfl

theorem finish_thins (s : State) : Thins s s.finish := by
  have h1 : Thins s (if s.settleDone then s.endSettle else s) := by
    split
    · exact ((thins_of_held (settleEnded_held s)).trans (retarget_thins _)).trans (thins_of_held (preemptTest_held _))
    · exact thins_of_held (.refl s)
  have h2 : ∀ v : State, Thins v (if v.walkDone then v.endWalk else v) := fun v => by
    split
    · exact thins_of_held (endWalk_held v)
    · exact thins_of_held (.refl v)
  exact h1.trans (h2 _)

/-! ## The steps of TRANSFER (R153) -/

/-- R153 steps 2 to 6: the active role at the destination. -/
def roleMoved (s : State) : State := s.moveActive s.role.active.other

/-- R8, R153: the TENTATIVE entries freed. -/
def swept (s : State) : State := (roleMoved s).freeAll ((roleMoved s).handlesIn .tentative)

/-- R153, R154: the entries marked and their number recorded, up to the tests that end the event. -/
def transferred (s : State) : State := (swept s).markEntries.recordTransfer.toSettle

theorem makeTransfer_eq (s : State) : s.makeTransfer = (transferred s).finish := rfl

theorem toSettle_mirror (s : State) : s.toSettle.mirror = s.mirror := by rw [toSettle_eq]

theorem toSettle_table (s : State) : s.toSettle.table = s.table := by rw [toSettle_eq]

theorem toSettle_event (s : State) (ev : EventId) : s.toSettle.event ev = s.event ev := by rw [toSettle_eq]; rfl

theorem recordTransfer_role (s : State) : s.recordTransfer.role =
    { s.role with record := { s.role.record with markedAtTransfer := min s.role.marked 65535 } } := rfl

theorem recordTransfer_mirror (s : State) : s.recordTransfer.mirror = s.mirror := rfl

theorem recordTransfer_table (s : State) : s.recordTransfer.table = s.table := rfl

theorem recordTransfer_event (s : State) (ev : EventId) : s.recordTransfer.event ev = s.event ev := rfl

theorem recordTransfer_planned (hk : s.role.kind = some .planned) :
    s.recordTransfer.count .cutoversPlanned = min (s.count .cutoversPlanned + 1) Config.counterMax := by
  rw [State.recordTransfer, hk, if_pos rfl, count_inc, if_pos rfl]
  rfl

theorem recordTransfer_onward (s : State) : Onward s s.recordTransfer :=
  ⟨by rw [recordTransfer_role], fun hp => by rw [recordTransfer_role]; exact hp⟩

theorem roleMoved_pushing (s : State) : (roleMoved s).mirror.state = .pushing := rfl

theorem transferred_pushing (s : State) : (transferred s).mirror.state = .pushing := by
  rw [transferred, toSettle_mirror, recordTransfer_mirror, (markEntries_marks _).mirrorState, swept,
    (freeAll_works _ _).mirrorState, roleMoved_pushing]

theorem swept_marked_onward (s : State) : Onward (roleMoved s) (swept s).markEntries :=
  (freeAll_onward _ _).trans (marks_onward (markEntries_marks _))

theorem transferred_onward (s : State) : Onward (roleMoved s) (transferred s) := by
  unfold transferred
  exact ((swept_marked_onward s).trans (recordTransfer_onward _)).trans (toSettle_onward _)

theorem makeTransfer_onward (s : State) : Onward (roleMoved s) s.makeTransfer := by
  rw [makeTransfer_eq]
  exact (transferred_onward s).trans (finish_onward (transferred_pushing s))

theorem transferred_held (s : State) : Held (swept s) (transferred s) := by
  unfold transferred
  exact ((markEntries_held _).trans (recordTransfer_held _)).trans (toSettle_held _)

theorem makeTransfer_still (s : State) : Still (roleMoved s) s.makeTransfer := by
  have hfree : Still (roleMoved s) (swept s) := freeAll_still _ _
  rw [makeTransfer_eq]
  exact (hfree.trans (transferred_held s).toStill).trans (finish_still _)

theorem makeTransfer_event (s : State) {ev : EventId} (h1 : ev ≠ .tableLevel) (h2 : ev ≠ .parkLevel) (h3 : ev ≠ .cutoverEnd) :
    s.makeTransfer.event ev = s.event ev := by
  have hmark : (swept s).markEntries.event ev = (swept s).event ev := by
    simp only [State.event, (markEntries_marks (swept s)).events]
  have hfree : (swept s).event ev = (roleMoved s).event ev := (freeAll_frees _ _).events ev h1 h2
  rw [makeTransfer_eq, finish_event_of_pushing (transferred_pushing s) h1 h2 h3, transferred, toSettle_event,
    recordTransfer_event, hmark, hfree]
  rfl

/-- R153 step 9: a planned cutover is counted, unless the counter has saturated. -/
theorem makeTransfer_planned (s : State) (hk : s.role.kind = some .planned) (hc : s.count .cutoversPlanned < Config.counterMax) :
    s.count .cutoversPlanned < s.makeTransfer.count .cutoversPlanned := by
  have hbefore : Kept s (swept s).markEntries :=
    (moveActive_moved s).toKept.trans ((freeAll_still _ _).trans (markEntries_held _).toStill).toKept
  have hafter : Kept (swept s).markEntries.recordTransfer s.makeTransfer :=
    ((toSettle_held _).toStill.trans (finish_still _)).toKept
  have hkind : (swept s).markEntries.role.kind = some .planned := by rw [(swept_marked_onward s).role]; exact hk
  have hcount := recordTransfer_planned hkind
  obtain ⟨hb, -⟩ := hbefore.counts .cutoversPlanned hc.le
  obtain ⟨ha, -⟩ := hafter.counts .cutoversPlanned (by omega)
  omega

/-! ## The entries that TRANSFER marks -/

/-- R118: the entry with its walk flag clear. -/
def walkOff (e : Entry) : Entry := e.mapMirror (fun m => { m with walk := false })

theorem toBeMarked_walkOff (e : Entry) : (walkOff e).toBeMarked = e.toBeMarked := by
  obtain ⟨fam, pr, o, i, c, n, x, b⟩ := e
  cases b <;> rfl

theorem roleMoved_tableOk (hok : s.tableOk) : (roleMoved s).tableOk := (moveActive_moved s).table hok

theorem roleMoved_entry (s : State) (h : Nat) : (roleMoved s).entry? h = (s.entry? h).map walkOff :=
  entry?_mapEntries s (·.mapMirror (fun m => { m with walk := false })) h

theorem roleMoved_phase (s : State) (h : Nat) : (roleMoved s).phase h = s.phase h := by
  refine phase_of_map ?_
  rw [roleMoved_entry, Option.map_map]
  exact Option.map_congr (fun e _ => phase_mapMirror e _)

/-- R8: distinct TENTATIVE entries freed: no other entry and no role is touched. -/
theorem freeAll_tentatives {hs : List Nat} (hn : hs.Nodup) (hok : s.tableOk) (hp : ∀ h ∈ hs, s.phase h = .tentative) :
    (s.freeAll hs).role = s.role ∧ ∀ g, (s.freeAll hs).entry? g = if g ∈ hs then none else s.entry? g := by
  unfold State.freeAll
  induction hs generalizing s with
  | nil => exact ⟨rfl, fun g => by simp⟩
  | cons h hs ih =>
    obtain ⟨hh, hn⟩ := List.nodup_cons.mp hn
    obtain ⟨e, he, hph⟩ := entry_of_phase (hp h List.mem_cons_self) (by decide)
    have hoth := freeTentative_others hok he (phase_eq_tentative.mp hph)
    have hrole : (s.freeEntry h).role = s.role := by
      rw [freeEntry_role, isMarked_of_not_live he (by rw [hph]; decide)]
      rfl
    obtain ⟨ir, ie⟩ := ih hn ((freeEntry_still s h).table hok) (fun g hg => by
      rw [phase_congr (hoth g (fun k => hh (k ▸ hg)))]
      exact hp g (List.mem_cons_of_mem _ hg))
    refine ⟨ir.trans hrole, fun g => (ie g).trans ?_⟩
    by_cases hg : g = h
    · subst hg
      rw [if_neg hh, if_pos List.mem_cons_self]
      exact (freeEntry_table hok he).1
    · rw [hoth g hg]
      simp [hg]

theorem mem_handlesIn {ph : Phase} (hne : ph ≠ .free) {h : Nat} : h ∈ s.handlesIn ph ↔ s.phase h = ph := by
  unfold State.handlesIn
  rw [List.mem_filter, beq_iff_eq]
  refine ⟨fun k => k.2, fun k => ⟨?_, k⟩⟩
  obtain ⟨e, he, -⟩ := entry_of_phase k hne
  exact mem_handles he

theorem swept_eq (hok : s.tableOk) : (swept s).role = (roleMoved s).role ∧
    ∀ g, (swept s).entry? g = if s.phase g = .tentative then none else (s.entry? g).map walkOff := by
  have hok' := roleMoved_tableOk hok
  obtain ⟨hr, he⟩ := freeAll_tentatives (hs := (roleMoved s).handlesIn .tentative) ((handles_nodup hok').filter _) hok'
    (fun h hm => (mem_handlesIn (by decide)).mp hm)
  refine ⟨hr, fun g => (he g).trans ?_⟩
  simp only [mem_handlesIn (s := roleMoved s) (ph := .tentative) (by decide), roleMoved_phase, roleMoved_entry]

theorem swept_tableOk (hok : s.tableOk) : (swept s).tableOk :=
  (freeAll_still _ _).table (roleMoved_tableOk hok)

/-- R153 step 7: no TENTATIVE entry is left. -/
theorem makeTransfer_noTentative (hok : s.tableOk) (h : Nat) : s.makeTransfer.phase h ≠ .tentative := by
  have hswept : (swept s).phase h ≠ .tentative := by
    have he := (swept_eq hok).2 h
    split at he
    · rw [phase_of_none he]; decide
    · rename_i hp
      rw [phase_congr (t := swept s) (s := roleMoved s) (he.trans (roleMoved_entry s h).symm), roleMoved_phase]
      exact hp
  have k : Thins (swept s) s.makeTransfer := (thins_of_held (transferred_held s)).trans (finish_thins _)
  rcases (k (swept_tableOk hok)).2 h with hp | hp <;> rw [hp]
  · exact hswept
  · decide

theorem dueAt_swept (hok : s.tableOk) (h : Nat) : dueAt (swept s) h = dueAt s h := by
  have he := (swept_eq hok).2 h
  unfold dueAt
  cases hs : s.entry? h with
  | none => rw [he, hs]; simp
  | some e =>
    rw [he, hs, phase_of_entry hs]
    split
    · rename_i hp
      split at hp
      · cases hp
      · cases hp
        exact toBeMarked_walkOff e
    · rename_i hp
      split at hp
      · rename_i ht
        simp [Entry.toBeMarked, Entry.mirror?, phase_eq_tentative.mp ht]
      · cases hp

theorem mem_handles_of_dueAt {h : Nat} (hd : dueAt s h = true) : h ∈ s.handles := by
  obtain ⟨e, he, -⟩ := dueAt_iff.mp hd
  exact mem_handles he

/-- R154: as many entries are named after the TENTATIVE ones are freed as before. -/
theorem swept_due_length (hok : s.tableOk) : ((swept s).handles.filter (dueAt (swept s))).length =
    (s.table.entries.filter (fun x => x.2.toBeMarked)).length := by
  have hperm : ((swept s).handles.filter (dueAt (swept s))).Perm (s.handles.filter (dueAt s)) := by
    refine (List.perm_ext_iff_of_nodup ((handles_nodup (swept_tableOk hok)).filter _) ((handles_nodup hok).filter _)).mpr
      (fun h => ?_)
    rw [List.mem_filter, List.mem_filter, dueAt_swept hok]
    refine and_congr_left (fun hd => ⟨fun _ => mem_handles_of_dueAt hd, fun _ => ?_⟩)
    exact mem_handles_of_dueAt ((dueAt_swept hok h).trans hd)
  rw [hperm.length_eq, State.handles, List.filter_map, List.length_map]
  refine congrArg List.length (List.filter_congr (fun x hx => ?_))
  rw [Function.comp_apply, dueAt_of_entry (entry?_of_mem hok hx)]

theorem transferred_entry (s : State) (h : Nat) : (transferred s).entry? h = (swept s).markEntries.entry? h := by
  refine entry?_of_table ?_ h
  rw [transferred, toSettle_table, recordTransfer_table]

/-- R154: what TRANSFER makes of a LIVE entry, up to the tests that end the event. -/
theorem transferred_live (hok : s.tableOk) {h : Nat} {e : Entry} {d : Declared} {m : MirrorPart} {l : LivePart}
    (he : s.entry? h = some e) (hb : e.body = .live d m l) : (transferred s).entry? h = some
      (if e.toBeMarked then e.withLive d (pushedPart { m with walk := false }) { l with marked := true }
        else e.withLive d { m with walk := false } l) := by
  have hoff : walkOff e = e.withLive d { m with walk := false } l := by simp [walkOff, Entry.mapMirror, hb, Entry.withLive]
  have hsw : (swept s).entry? h = some (e.withLive d { m with walk := false } l) := by
    rw [(swept_eq hok).2 h, phase_of_entry he, phase_of_live hb, if_neg (by decide), he, Option.map_some, hoff]
  rw [transferred_entry, markEntries_live (swept_tableOk hok) hsw, ← hoff, toBeMarked_walkOff]

theorem transferred_tableOk (hok : s.tableOk) : (transferred s).tableOk :=
  (transferred_held s).table (swept_tableOk hok)

/-- R153 step 9, R154: the marked count, and what the cutover record holds of it. -/
theorem transferred_role (hok : s.tableOk) (hz : s.role.marked = 0) :
    (transferred s).role.marked = (s.table.entries.filter (fun x => x.2.toBeMarked)).length ∧
      (transferred s).role.record.markedAtTransfer =
        min (s.table.entries.filter (fun x => x.2.toBeMarked)).length 65535 ∧
      ((transferred s).role.phase = .settle → (s.table.entries.filter (fun x => x.2.toBeMarked)).length = 0) := by
  have hm : (swept s).markEntries.role.marked = (s.table.entries.filter (fun x => x.2.toBeMarked)).length := by
    rw [markEntries_marked (swept_tableOk hok), swept_due_length hok, (swept_eq hok).1, show (roleMoved s).role.marked = 0 from hz,
      Nat.zero_add]
  have hp : (swept s).markEntries.role.phase = .transfer := by
    rw [(markEntries_marks _).role, (swept_eq hok).1]
    rfl
  rw [← hm, transferred, toSettle_role, recordTransfer_role]
  generalize (swept s).markEntries.role = r at hp ⊢
  simp only [hp, true_and]
  split
  · rename_i hz
    exact ⟨rfl, rfl, fun _ => hz⟩
  · exact ⟨rfl, rfl, nofun⟩

end Sys2Proof.Cutover

/-! The end of QUIESCE (R65, R139, R152 to R154): what its TRANSFER leaves, and the two events that make it. -/

namespace Sys2Proof.Cutover

open Sys2Proof Sys2Proof.Machine Sys2Proof.Laws Sys2Proof.SessionTable Sys2Proof.SessionDeclarations

variable {s t u : State}

/-! ## The marking rule met -/

theorem toBeMarked_of_none {h : Nat} {e : Entry} (he : s.entry? h = some e)
    (hz : (s.table.entries.filter (fun x => x.2.toBeMarked)).length = 0) : e.toBeMarked = false := by
  have hm : (h, e) ∈ s.table.entries := mem_of_get he
  rw [List.length_eq_zero_iff, List.filter_eq_nil_iff] at hz
  simpa using hz _ hm

/-- R154: where the rule names no entry, it is met by a state without marks. -/
theorem markedAs_of_none (hz : (s.table.entries.filter (fun x => x.2.toBeMarked)).length = 0)
    (hm : ∀ h, t.isMarked h = false) : s.markedAs t := by
  intro h e d m l he hb _
  have hnot := mt (toBeMarked_iff hb).mpr (by rw [toBeMarked_of_none he hz]; decide)
  exact ⟨iff_of_false (by simp [hm h]) hnot, fun k => absurd k hnot, fun k => absurd k hnot, fun k => absurd k hnot⟩

/-- R154: the marking rule is met as the marks are set. -/
theorem transferred_markedAs (hok : s.tableOk) (hm : ∀ h, s.isMarked h = false) : s.markedAs (transferred s) := by
  intro h e d m l he hb hlane
  have hlive := transferred_live hok he hb
  have hdue := toBeMarked_iff hb
  cases hmark : e.toBeMarked with
  | false =>
    have hnot := mt hdue.mpr (by rw [hmark]; decide)
    have hl : l.marked = false := by rw [← hm h, isMarked_of_live (he.trans (congrArg some (eq_withLive hb)))]
    rw [hmark] at hlive
    refine ⟨iff_of_false ?_ hnot, fun k => absurd k hnot, fun k => absurd k hnot, fun k => absurd k hnot⟩
    rw [isMarked_of_live hlive, hl]
    decide
  | true =>
    rw [hmark, if_pos rfl] at hlive
    rw [isMarked_of_live hlive, laneOf_of_live hlive, queuedOf_of_live hlive]
    refine ⟨iff_of_true rfl (hdue.mp hmark), fun _ hq => ?_, fun _ hq hi => ?_, fun _ hq hi => ?_⟩
    · obtain ⟨k, hk⟩ := Option.ne_none_iff_exists'.mp hq
      obtain ⟨ln, hln⟩ := Option.ne_none_iff_exists'.mp (mt hlane.mp hq)
      cases ln with
      | urgent => rw [pushedPart_of_urgent (m := { m with walk := false }) hln]; exact ⟨hln, rfl⟩
      | normal => rw [pushedPart_of_normal (m := { m with walk := false }) hln hk]; exact ⟨rfl, hk.symm⟩
    · rw [pushedPart_of_inflight (m := { m with walk := false }) (hlane.mpr hq) (Option.isSome_iff_ne_none.mpr hi)]
      exact ⟨hlane.mpr hq, hq⟩
    · rw [pushedPart_of_idle (m := { m with walk := false }) (hlane.mpr hq) (by simp [hi])]
      exact ⟨rfl, rfl⟩

/-- R153, R154, R160: the marking of a TRANSFER that found no mark, when its event has ended. -/
theorem makeTransfer_marks (hok : s.tableOk) (hz : s.role.marked = 0) (hm : ∀ h, s.isMarked h = false) :
    s.markedAs s.makeTransfer ∧ s.makeTransfer.role.record.markedAtTransfer =
      min (s.table.entries.filter (fun x => x.2.toBeMarked)).length 65535 := by
  obtain ⟨-, hrec, hnone⟩ := transferred_role hok hz
  rw [makeTransfer_eq]
  rcases finish_of_pushing (transferred_pushing s) with ⟨-, e⟩ | ⟨hd, e⟩ <;> rw [e]
  · exact ⟨transferred_markedAs hok hm, hrec⟩
  · have hok' := transferred_tableOk hok
    have hsettle : (transferred s).role.phase = .settle := by
      simp only [State.settleDone, Bool.and_eq_true, beq_iff_eq] at hd
      exact hd.1.1.1
    refine ⟨markedAs_of_none (hnone hsettle) (endedSettle_isMarked hok'), ?_⟩
    rw [endedSettle_role hok', settleEnded_role]
    exact hrec

/-! ## The end of QUIESCE -/

/-- R152 to R154: a TRANSFER event from QUIESCE, before the ROLE frames. -/
theorem makeTransfer_endsQuiesce (s : State) : s.endsQuiesce s.makeTransfer := by
  have hrole := (makeTransfer_onward s).role
  have hstill := makeTransfer_still s
  have hdecl : s.makeTransfer.decl = s.decl.set s.role.active.other none := hstill.decl
  refine ⟨⟨⟨hstill.active, hstill.epoch, ?_, ?_⟩, ?_, ?_, ?_, makeTransfer_noTentative⟩, ?_, ?_, makeTransfer_planned s,
    makeTransfer_marks⟩
  · rw [hdecl, perFw_get_set, if_pos rfl]
  · rw [hdecl, perFw_get_set, if_neg (fw_other_ne _)]
  · rw [hrole]; rfl
  · rw [hrole]; rfl
  · rw [hrole]; rfl
  · exact (makeTransfer_onward s).phase (show CutPhase.transfer ≠ .quiesce by decide)
  · rw [hrole]; rfl

/-- What `State.endsQuiesce` reads of the two states. -/
theorem endsQuiesce_congr {v w : State} (h : v.endsQuiesce w) (htab : v.table = s.table) (hdecl : v.decl = s.decl)
    (hpar : v.params = s.params) (hrole : { v.role with quiesce := s.role.quiesce } = s.role)
    (hcnt : v.count .cutoversPlanned = s.count .cutoversPlanned) (ktab : w.table = t.table) (kdecl : w.decl = t.decl)
    (krole : w.role = t.role) (kcnt : w.count .cutoversPlanned = t.count .cutoversPlanned) : s.endsQuiesce t := by
  have ha : v.role.active = s.role.active := by rw [← hrole]
  have he : v.role.epoch = s.role.epoch := by rw [← hrole]
  have hk : v.role.kind = s.role.kind := by rw [← hrole]
  have hm : v.role.marked = s.role.marked := by rw [← hrole]
  simp only [State.endsQuiesce, State.transferredTo, State.movedTo, State.markedAs, State.tableOk, State.isMarked,
    State.laneOf, State.queuedOf, State.phase, State.entry?, State.param, htab, hdecl, hpar, hcnt, ktab, kdecl, krole, kcnt,
    ha, he, hk, hm] at h ⊢
  exact h

theorem sendRoleChanges_count (s : State) (ph : CutPhase) (a b : RoleName) {c : Counter} (hc : c ≠ .txDrop) :
    (s.sendRoleChanges ph a b).count c = s.count c := by
  have k : ∀ (v : State) (x : Bool) (f : Fw), (if x then v.sendRole f else v).count c = v.count c := fun v x f => by
    split
    · exact handTx_count v _ _ hc
    · rfl
  exact (k _ _ .b).trans (k s _ .a)

/-- R152 to R154: the end of QUIESCE as an event, from a state that differs in what the end does not read. -/
theorem asEvent_endsQuiesce {v : State} {body : State → State} {w : State} (hbody : body v = w.makeTransfer)
    (htab : w.table = s.table) (hdecl : w.decl = s.decl) (hpar : w.params = s.params)
    (hrole : { w.role with quiesce := s.role.quiesce } = s.role)
    (hcnt : w.count .cutoversPlanned = s.count .cutoversPlanned) : s.endsQuiesce (v.asEvent body) := by
  have k : Sends w.makeTransfer (v.asEvent body) := hbody ▸ sendRoleChanges_sends (body v) _ _ _
  refine endsQuiesce_congr (makeTransfer_endsQuiesce w) htab hdecl hpar hrole hcnt k.table.symm k.decl.symm k.role.symm ?_
  exact (hbody ▸ sendRoleChanges_count (body v) _ _ _ (by decide) :
    (v.asEvent body).count .cutoversPlanned = w.makeTransfer.count .cutoversPlanned).symm

theorem asEvent_event (s : State) (body : State → State) (ev : EventId) : (s.asEvent body).event ev = (body s).event ev := by
  simp only [State.event, State.asEvent, sendRoleChanges_events]

/-! ## FLUSHED (R65) -/

/-- R65: the source's last received value is set and differs from the sequence of its FLUSHED. -/
def flushGapAt (s : State) (f : Fw) (n : Word16) : Bool := (s.decl.get f).any (fun r => r.lastReceived != n)

theorem compareFlushed_cases (s : State) (f : Fw) (n : Word16) :
    (flushGapAt s f n = false ∧ s.compareFlushed f n = s) ∨
      (flushGapAt s f n = true ∧ ∃ want, s.compareFlushed f n = s.raiseGap f want n) := by
  unfold State.compareFlushed flushGapAt
  cases s.decl.get f with
  | none => exact .inl ⟨rfl, rfl⟩
  | some r =>
    by_cases hr : r.lastReceived = n
    · exact .inl ⟨by simp [hr], by simp [hr]⟩
    · exact .inr ⟨by simp [hr], r.lastReceived, by simp [hr]⟩

theorem compareFlushed_sends (s : State) (f : Fw) (n : Word16) : Sends s (s.compareFlushed f n) := by
  rcases compareFlushed_cases s f n with ⟨-, h⟩ | ⟨-, want, h⟩ <;> rw [h]
  · exact .refl s
  · exact raiseGap_sends s f want n

theorem compareFlushed_gap (s : State) (f : Fw) (n : Word16) : (s.compareFlushed f n).event .declGap =
    if flushGapAt s f n = true then (s.event .declGap).next else s.event .declGap := by
  rcases compareFlushed_cases s f n with ⟨hg, h⟩ | ⟨hg, want, h⟩ <;> rw [h, hg]
  · rfl
  · exact raiseGap_event s f want n _

theorem compareFlushed_count (s : State) (f : Fw) (n : Word16) {c : Counter} (hc : c ≠ .txDrop) :
    (s.compareFlushed f n).count c = s.count c := by
  rcases compareFlushed_cases s f n with ⟨-, h⟩ | ⟨-, want, h⟩ <;> rw [h]
  exact raiseGap_count s f want n hc

theorem flushedFrom_of_source {f : Fw} (c : Ccf) (h : s.role.phase = .quiesce ∧ s.role.source = some f) :
    s.flushedFrom f c = (s.compareFlushed f c.seq).asEvent State.makeTransfer := if_pos h

theorem flushedFrom_ignored {f : Fw} (c : Ccf) (h : ¬ (s.role.phase = .quiesce ∧ s.role.source = some f)) :
    s.flushedFrom f c = s.inc .flushedIgnored := if_neg h

/-! ## The quiesce timer (R139, R152) -/

/-- R139: the quiesce timer stopped. -/
def quiesceStopped (s : State) : State := { s with role := { s.role with quiesce := .stopped } }

/-- R139, R152: an expiry of the quiesce timer, before the ROLE frames. -/
def quiesceExpired (s : State) : State :=
  if s.role.phase = .quiesce then (quiesceStopped s).makeTransfer else quiesceStopped s

theorem quiesceEnds_of_running (h : s.role.quiesce ≠ .stopped) : s.quiesceEnds = s.asEvent quiesceExpired := by
  have hr : s.role.quiesce.isRunning = true := by
    cases hq : s.role.quiesce with
    | stopped => exact absurd hq h
    | running p => rfl
  exact if_pos hr

theorem quiesceEnds_of_stopped (h : s.role.quiesce = .stopped) : s.quiesceEnds = s := by
  simp [State.quiesceEnds, h, Timer.isRunning]

/-! ## The statement -/

/-- Settles O27: both events come to one TRANSFER, from states that differ in what `State.endsQuiesce` does not read. -/
theorem quiesceEndsInTheMoveOfTheActiveRole : Obligations.QuiesceEndsInTheMoveOfTheActiveRole := by
  refine ⟨fun f fr s hg => ⟨fun hp hf => ?_, fun hn => ?_⟩, fun s => ⟨fun hq => ?_, fun hq hp => ?_⟩⟩
  · let v := s.inc (.framesIn f.inPort)
    let w := v.compareFlushed f (readCcf fr).seq
    have k : Sends v w := compareFlushed_sends v f _
    have hcnt : w.count .cutoversPlanned = s.count .cutoversPlanned := by
      rw [compareFlushed_count _ _ _ (by decide), count_inc, if_neg nofun]
    have hend : s.endsQuiesce (w.asEvent State.makeTransfer) :=
      asEvent_endsQuiesce (w := w) rfl k.table k.decl k.params (by rw [k.role]; rfl) hcnt
    refine ⟨_, (exec_flushed f hg).trans (congrArg Host.Outcome.next (flushedFrom_of_source (s := v) _ ⟨hp, hf⟩)), hend, ?_,
      fun ha => ?_⟩
    · rw [asEvent_event, makeTransfer_event _ (by decide) (by decide) (by decide), compareFlushed_gap]
      rfl
    · obtain ⟨⟨⟨-, -, -, hother⟩, -⟩, -⟩ := hend
      rwa [fw_other_other, ha] at hother
  · exact (exec_flushed f hg).trans
      (congrArg Host.Outcome.next (flushedFrom_ignored (s := s.inc (.framesIn f.inPort)) _ hn))
  · exact congrArg Host.Outcome.next (quiesceEnds_of_stopped hq)
  · have hbody : quiesceExpired s = (quiesceStopped s).makeTransfer := if_pos hp
    refine ⟨_, congrArg Host.Outcome.next (quiesceEnds_of_running hq), asEvent_endsQuiesce hbody rfl rfl rfl rfl rfl, ?_, ?_⟩
    · rw [asEvent_event, hbody, makeTransfer_event _ (by decide) (by decide) (by decide)]
      rfl
    · have hhealth : (quiesceExpired s).health = s.health := hbody ▸ (makeTransfer_still (quiesceStopped s)).health
      exact (sendRoleChanges_sends _ _ _ _).health.trans hhealth

end Sys2Proof.Cutover

/-! The bound on the transmit queues over one step (R70): every command but RESET, LINK_UP, LINK_DOWN and TRANSMIT_FRAME at most
hands frames to queues that have room. -/

namespace Sys2Proof.FramePath

open Sys2Proof Sys2Proof.Machine Sys2Proof.Laws Sys2Proof.SessionTable

/-- The bound on the transmit queues is carried from `s` to `t`. -/
def KeepsQueues (s t : State) : Prop := s.queuesOk → t.queuesOk

variable {s t u : State}

theorem KeepsQueues.refl (s : State) : KeepsQueues s s := id

theorem KeepsQueues.trans (h : KeepsQueues s t) (k : KeepsQueues t u) : KeepsQueues s u := k ∘ h

theorem KeepsQueues.ite {c : Prop} [Decidable c] {a b : State} (ha : KeepsQueues s a) (hb : KeepsQueues s b) :
    KeepsQueues s (if c then a else b) := by split <;> assumption

/-- The bound reads nothing but the ports. -/
theorem keepsQueues_of_ports (h : t.ports = s.ports) : KeepsQueues s t := fun hs p => by
  unfold State.port
  rw [h]
  exact hs p

/-- One port replaced by one within the bound. -/
theorem keepsQueues_setPort {p : Port} {x : PortState} (hx : (s.port p).ok = true → x.ok = true) :
    KeepsQueues s (s.setPort p x) := fun hs q => by
  rw [port_setPort]
  split
  · exact hx (hs p)
  · exact hs q

theorem keepsQueues_asEvent {body : State → State} (h : KeepsQueues s (body s)) : KeepsQueues s (s.asEvent body) :=
  h.trans (sendRoleChanges_held _ _ _ _).queues

/-! ## Ports: links and transmission -/

theorem portOk_up {x : PortState} (h : x.ok = true) : ({ x with link := .up } : PortState).ok = true := by
  simp only [PortState.ok, Bool.and_eq_true] at h ⊢
  exact ⟨h.1, rfl⟩

theorem portOk_tail {x : PortState} {f : Frame} {rest : List Frame} (hx : x.tx = f :: rest) (h : x.ok = true) :
    ({ x with tx := rest } : PortState).ok = true := by
  simp only [PortState.ok, hx, List.length_cons, List.isEmpty_cons, Bool.or_false, Bool.and_eq_true,
    decide_eq_true_eq] at h ⊢
  exact ⟨by omega, by simp [h.2]⟩

theorem keepsQueues_linkRise (s : State) (p : Port) : KeepsQueues s (s.linkRise p) :=
  .ite (.refl s) ((keepsQueues_setPort portOk_up).trans (raise_held _ _ _).queues)

theorem keepsQueues_dropLink (s : State) (p : Port) : KeepsQueues s (s.dropLink p) :=
  KeepsQueues.trans (add_held s _ _).queues (keepsQueues_setPort (fun _ => rfl))

theorem keepsQueues_transmit (s : State) (p : Port) : KeepsQueues s (s.transmit p) := by
  unfold State.transmit
  split
  · exact .refl s
  · rename_i hx
    exact (keepsQueues_setPort (portOk_tail hx)).trans (inc_held _ _).queues

/-! ## Health -/

theorem keepsQueues_moveHealth (s : State) (f : Fw) (h : HealthRecord) : KeepsQueues s (s.moveHealth f h) :=
  (keepsQueues_of_ports (t := s.setFw f h) rfl).trans (raiseHealth_held _ _ _ _).queues

theorem keepsQueues_pulseFrom (s : State) (f : Fw) (c : Ccf) : KeepsQueues s (s.pulseFrom f c) := by
  unfold State.pulseFrom
  refine KeepsQueues.trans ?_ (mirrorPulse_still _ f).queues
  refine KeepsQueues.trans ?_ (handIfChanged_moved _ s f).queues
  refine KeepsQueues.trans ?_ (keepsQueues_asEvent (fitnessTaken_held _).queues)
  refine KeepsQueues.trans ?_ (sendRole_held _ f).queues
  exact (keepsQueues_moveHealth s f _).trans (countMismatch_held _ f).queues

theorem keepsQueues_pulseExpiry (s : State) (f : Fw) : KeepsQueues s (s.pulseExpiry f) :=
  .ite ((keepsQueues_moveHealth s f _).trans (handIfChanged_moved _ s f).queues) (.refl s)

theorem keepsQueues_linkLoss (s : State) (f : Fw) : KeepsQueues s (s.linkLoss f) := by
  have k : KeepsQueues s ((s.setFw f ((s.fw f).loseLink (s.param .beatPeriod))).raiseFwDown f .link) :=
    (keepsQueues_of_ports (t := s.setFw f _) rfl).trans (raise_held _ _ _).queues
  exact .ite k (k.trans (handChange_moved _ _ _ _ _).queues)

theorem keepsQueues_linkFall (s : State) (p : Port) : KeepsQueues s (s.linkFall p) := by
  have k : KeepsQueues s ((s.dropLink p).raisePortLink p .down) :=
    (keepsQueues_dropLink s p).trans (raise_held _ _ _).queues
  unfold State.linkFall
  refine .ite (.refl s) ?_
  dsimp only
  split
  · exact k.trans (keepsQueues_linkLoss _ _)
  · exact k

/-! ## Frames that arrive -/

theorem keepsQueues_bySender (s : State) (p : Port) {act : Fw → State} (h : ∀ f, KeepsQueues s (act f)) :
    KeepsQueues s (s.bySender p act) := by
  unfold State.bySender
  split
  · exact h _
  · exact .refl s

theorem keepsQueues_syncAckFrom (s : State) (c : Ccf) : KeepsQueues s (s.syncAckFrom c) := by
  unfold State.syncAckFrom
  exact keepsQueues_asEvent ((syncAck_still s _ _).trans (finish_still _)).queues

theorem keepsQueues_toOwner (s : State) (p : Port) (k : CcfKind) (c : Ccf) : KeepsQueues s (s.toOwner p k c) := by
  cases k
  case pulse => exact keepsQueues_bySender s p (fun f => keepsQueues_pulseFrom s f c)
  case declare => exact keepsQueues_bySender s p (fun f => (declareFrom_moved s f c).queues)
  case flushed => exact keepsQueues_bySender s p (fun f => (flushedFrom_moved s f c).queues)
  case syncAck => exact keepsQueues_syncAckFrom s c
  case query => exact .ite (keepsQueues_of_ports rfl) (keepsQueues_of_ports rfl)
  all_goals exact .refl s

theorem keepsQueues_ccfFrameIn (s : State) (p : Port) (f : Frame) : KeepsQueues s (s.ccfFrameIn p f) := by
  unfold State.ccfFrameIn State.takeCcf
  refine .ite (.ite (keepsQueues_of_ports rfl) ?_) (keepsQueues_of_ports rfl)
  split
  · exact keepsQueues_toOwner s p _ _
  · exact keepsQueues_of_ports rfl

theorem keepsQueues_receive (s : State) (p : Port) (f : Frame) : KeepsQueues s (s.receive p f) := by
  have k : KeepsQueues s (s.inc (.framesIn p)) := keepsQueues_of_ports rfl
  exact .ite (.ite (k.trans (keepsQueues_ccfFrameIn _ p f)) (k.trans (dataFrame_still _ p f).queues))
    (keepsQueues_of_ports rfl)

/-! ## Requests -/

/-- R195: the REPLY joins a queue that has room, so a request keeps the bound when the rule that judges it does. -/
theorem keepsQueues_serve (s : State) (mine : Byte → Bool) {judge : State → Request → Answer}
    (h : ∀ v q, KeepsQueues v (judge v q).state) : KeepsQueues s (s.serve mine judge) := by
  unfold State.serve State.headFor
  cases hq : s.requests with
  | nil => exact .refl s
  | cons q rest =>
    by_cases hm : (mine q.code && s.canServe q.port) = true
    · simp only [hm, if_true]
      have k : KeepsQueues s { s with requests := rest } := keepsQueues_of_ports rfl
      exact (k.trans (h _ q)).trans (handTx_held _ _ _).queues
    · simp only [hm]
      exact .refl s

theorem keepsQueues_judgeRead (v : State) (q : Request) (n : Nat) {body : State → List Byte → Answer}
    (h : ∀ args, KeepsQueues v (body v args).state) : KeepsQueues v (v.judgeRead q n body).state := by
  unfold State.judgeRead
  split
  · exact .refl v
  · split
    · exact .refl v
    · exact h q.args

theorem keepsQueues_judgeWrite (v : State) (q : Request) (n : Nat) {body : State → List Byte → Answer}
    (h : ∀ args, KeepsQueues v (body v args).state) : KeepsQueues v (v.judgeWrite q n body).state := by
  unfold State.judgeWrite
  split
  · exact .refl v
  · split
    · exact .refl v
    · exact h q.args

theorem getParamOf_ports (v : State) (args : List Byte) : (v.getParamOf args).state.ports = v.ports := by
  unfold State.getParamOf
  split <;> rfl

theorem setParamOf_ports (v : State) (args : List Byte) : (v.setParamOf args).state.ports = v.ports := by
  unfold State.setParamOf
  split
  · rfl
  · dsimp only
    split
    · rfl
    · split
      · rfl
      · split <;> rfl

theorem getEntryOf_ports (v : State) (args : List Byte) : (v.getEntryOf args).state.ports = v.ports := by
  unfold State.getEntryOf
  split <;> rfl

theorem findEntryOf_ports (v : State) (args : List Byte) : (v.findEntryOf args).state.ports = v.ports := by
  unfold State.findEntryOf
  split
  · rfl
  · split <;> rfl

theorem listOf_ports (v : State) (args : List Byte) : (v.listOf args).state.ports = v.ports := by
  unfold State.listOf
  dsimp only
  split <;> rfl

theorem countersOf_ports (v : State) (args : List Byte) : (v.countersOf args).state.ports = v.ports := by
  unfold State.countersOf
  dsimp only
  split <;> rfl

theorem setPrefixOf_ports (v : State) (args : List Byte) : (v.setPrefixOf args).state.ports = v.ports := by
  unfold State.setPrefixOf
  split
  · rfl
  · split
    · split <;> rfl
    · rfl

theorem getPrefixOf_ports (v : State) (args : List Byte) : (v.getPrefixOf args).state.ports = v.ports := by
  unfold State.getPrefixOf
  split <;> rfl

theorem keepsQueues_judgeCounters (v : State) (q : Request) : KeepsQueues v (v.judgeCounters q).state := by
  have k := fun args => keepsQueues_of_ports (countersOf_ports v args)
  unfold State.judgeCounters
  split
  · exact keepsQueues_judgeWrite v q 1 k
  · exact keepsQueues_judgeRead v q 1 k

theorem keepsQueues_resyncOf (v : State) : KeepsQueues v v.resyncOf.state := by
  unfold State.resyncOf
  split
  · exact .refl v
  · split
    · exact .refl v
    · exact (walkStart_still v _).queues

theorem keepsQueues_purgeOf (v : State) (args : List Byte) : KeepsQueues v (v.purgeOf args).state := by
  unfold State.purgeOf
  dsimp only
  split
  · exact (purgeEntry_still v _).queues
  · exact .refl v

theorem keepsQueues_tableReset (v : State) : KeepsQueues v v.tableReset := by
  have k : KeepsQueues v (emptied v) := keepsQueues_of_ports rfl
  cases ht : v.mirror.target with
  | none => rw [tableReset_of_none ht]; exact k
  | some f => rw [tableReset_of_target ht]; exact k.trans (walkStart_still _ f).queues

theorem keepsQueues_tableResetOf (v : State) : KeepsQueues v v.tableResetOf.state := by
  unfold State.tableResetOf
  split
  · exact .refl v
  · exact keepsQueues_tableReset v

/-! ## Timers -/

theorem keepsQueues_restartExpiry (s : State) : KeepsQueues s s.restartExpiry := by
  unfold State.restartExpiry
  split <;> exact keepsQueues_of_ports rfl

theorem keepsQueues_startupExpiry (s : State) : KeepsQueues s s.startupExpiry := by
  unfold State.startupExpiry
  split
  · have k : KeepsQueues s { s with role := { s.role with startup := .over } } := keepsQueues_of_ports rfl
    exact keepsQueues_asEvent (k.trans (startupTest_moved _).queues)
  · exact .refl s

theorem keepsQueues_holdDownEnds (s : State) : KeepsQueues s s.holdDownEnds := by
  have k : KeepsQueues s { s with role := { s.role with holdDown := .stopped } } := keepsQueues_of_ports rfl
  exact .ite (keepsQueues_asEvent (k.trans (preemptTest_held _).queues)) (.refl s)

theorem keepsQueues_dwellEnds (s : State) : KeepsQueues s s.dwellEnds := by
  unfold State.dwellEnds
  split
  · have k : KeepsQueues s { s with role := { s.role with dwell := .complete } } := keepsQueues_of_ports rfl
    exact keepsQueues_asEvent (k.trans (preemptTest_held _).queues)
  · exact .refl s
  · exact .refl s

theorem keepsQueues_quiesceEnds (s : State) : KeepsQueues s s.quiesceEnds := by
  have k : KeepsQueues s { s with role := { s.role with quiesce := .stopped } } := keepsQueues_of_ports rfl
  exact .ite (keepsQueues_asEvent (.ite (k.trans (makeTransfer_moved _).queues) k)) (.refl s)

theorem keepsQueues_limitEnds (s : State) : KeepsQueues s s.limitEnds := by
  have k : KeepsQueues s { s with role := { s.role with cutLimit := .stopped } } := keepsQueues_of_ports rfl
  exact .ite (keepsQueues_asEvent (k.trans ((releaseAll_held _).toStill.trans (finish_still _)).queues))
    (.refl s)

/-! ## The step -/

/-- Every command keeps the bound on the transmit queues. -/
theorem exec_keepsQueues {c : Instr} (h : exec c s = .next t) : KeepsQueues s t := by
  cases c <;> cases h
  case reset => exact fun _ p => by cases p <;> rfl
  case rxError p f => exact keepsQueues_receive s p f
  case dataFrame p f => exact keepsQueues_receive s p f
  case pulse p f => exact keepsQueues_receive s p f
  case declare p f => exact keepsQueues_receive s p f
  case flushed p f => exact keepsQueues_receive s p f
  case syncAck p f => exact keepsQueues_receive s p f
  case query p f => exact keepsQueues_receive s p f
  case refusedCcf p f => exact keepsQueues_receive s p f
  case linkUp p => exact keepsQueues_linkRise s p
  case linkDown p => exact keepsQueues_linkFall s p
  case transmitFrame p => exact keepsQueues_transmit s p
  case releaseTurn => exact (releaseEvent_still s).queues
  case packBatch => exact (packBatch_held s).queues
  case walkCursorStep => exact (walkEvent_still s).queues
  case pulseTimerExpiry f => exact keepsQueues_pulseExpiry s f
  case classSweepExpiry c => exact keepsQueues_asEvent ((classSweep_still s c).trans (finish_still _)).queues
  case tentativeSweepExpiry => exact (tentativeSweep_still s).queues
  case confirmSweepExpiry =>
    exact keepsQueues_asEvent ((confirmSweep_held s).toStill.trans (finish_still _)).queues
  case parkSweepExpiry =>
    exact keepsQueues_asEvent ((parkSweep_held s).toStill.trans (finish_still _)).queues
  case restartHoldExpiry => exact keepsQueues_restartExpiry s
  case startupWaitExpiry => exact keepsQueues_startupExpiry s
  case holdDownExpiry => exact keepsQueues_holdDownEnds s
  case fitnessDwellExpiry => exact keepsQueues_dwellEnds s
  case quiesceTimerExpiry => exact keepsQueues_quiesceEnds s
  case lateWindowExpiry => exact .ite (keepsQueues_of_ports rfl) (.refl s)
  case cutoverLimitExpiry => exact keepsQueues_limitEnds s
  case getParam =>
    exact keepsQueues_serve s _ (fun v q => keepsQueues_judgeRead v q 1 (fun a => keepsQueues_of_ports (getParamOf_ports v a)))
  case setParam =>
    exact keepsQueues_serve s _ (fun v q => keepsQueues_judgeWrite v q 1 (fun a => keepsQueues_of_ports (setParamOf_ports v a)))
  case getStatus => exact keepsQueues_serve s _ (fun v q => keepsQueues_judgeRead v q 0 (fun _ => keepsQueues_of_ports rfl))
  case getEntry =>
    exact keepsQueues_serve s _ (fun v q => keepsQueues_judgeRead v q 2 (fun a => keepsQueues_of_ports (getEntryOf_ports v a)))
  case findEntry =>
    exact keepsQueues_serve s _ (fun v q => keepsQueues_judgeRead v q 3 (fun a => keepsQueues_of_ports (findEntryOf_ports v a)))
  case list =>
    exact keepsQueues_serve s _ (fun v q => keepsQueues_judgeRead v q 6 (fun a => keepsQueues_of_ports (listOf_ports v a)))
  case getCounters => exact keepsQueues_serve s _ keepsQueues_judgeCounters
  case getEvents => exact keepsQueues_serve s _ (fun v q => keepsQueues_judgeRead v q 0 (fun _ => .refl v))
  case clearEvents => exact keepsQueues_serve s _ (fun v q => keepsQueues_judgeWrite v q 2 (fun _ => keepsQueues_of_ports rfl))
  case setPrefix =>
    exact keepsQueues_serve s _ (fun v q => keepsQueues_judgeWrite v q 5 (fun a => keepsQueues_of_ports (setPrefixOf_ports v a)))
  case getPrefix =>
    exact keepsQueues_serve s _ (fun v q => keepsQueues_judgeRead v q 1 (fun a => keepsQueues_of_ports (getPrefixOf_ports v a)))
  case switchover => exact keepsQueues_serve s _ (fun v q => keepsQueues_judgeWrite v q 1
      (fun _ => (judgeSwitchover_still v _).queues))
  case resync => exact keepsQueues_serve s _ (fun v q => keepsQueues_judgeWrite v q 0 (fun _ => keepsQueues_resyncOf v))
  case purge => exact keepsQueues_serve s _ (fun v q => keepsQueues_judgeWrite v q 2 (keepsQueues_purgeOf v))
  case tableReset => exact keepsQueues_serve s _ (fun v q => keepsQueues_judgeWrite v q 0 (fun _ => keepsQueues_tableResetOf v))
  case unknownRequest => exact keepsQueues_serve s _ (fun v _ => .refl v)

/-- Settles O4: each command keeps the bound, by the frame of the operation it calls. -/
theorem transmitQueuesStayBounded : Obligations.TransmitQueuesStayBounded := by
  intro s t hs hstep
  unfold step at hstep
  split at hstep
  · cases hstep; exact hs
  · exact exec_keepsQueues (s := { s with pending := _ }) hstep hs

end Sys2Proof.FramePath

/-! The frames at a port: a CCF as the part builds it and as a port reads it back (R68, R71, R183, R184), and what is dropped
there with one counter (R68, R71, R72, R185 to R187). -/

namespace Sys2Proof.FramePath

open Sys2Proof Sys2Proof.Machine Sys2Proof.Laws Sys2Proof.SessionTable Sys2Proof.SessionDeclarations

variable {s t u : State}

/-! ## A CCF read back -/

theorem macAt_append_right {xs : List Byte} {n : Nat} (hn : xs.length = n) (ys : List Byte) :
    macAt (xs ++ ys) n = macAt ys 0 := by rw [macAt, List.drop_left' hn]; rfl

/-- R189: a MAC address reads back from its bytes. -/
theorem macAt_beMac (m : Mac) (more : List Byte) : macAt (beMac m ++ more) 0 = m := by
  have hfits : m.toNat < 256 ^ 6 := m.isLt
  rw [macAt, List.drop_zero, beMac, List.take_left' (length_beBytes _ _), beNat_beBytes, Nat.mod_eq_of_lt hfits]
  simp

theorem be2_of_lt {n : Nat} (h : n < 65536) : be2 n = [BitVec.ofNat 8 (n / 256), BitVec.ofNat 8 n] := by
  rw [be2, Nat.min_eq_left (by omega)]
  simp [beBytes]

/-- R183: a CCF's EtherType and header, with the bytes that follow them. -/
def ccfHeader (k : CcfKind) (flags count : Byte) (seq : Word16) (n : Nat) (more : List Byte) : List Byte :=
  0x88#8 :: 0xB5#8 :: 0x01#8 :: k.code :: flags :: count :: (be2 seq.toNat ++ (be2 n ++ more))

section
variable (dst src : Mac) (k : CcfKind) (flags count : Byte) (seq : Word16) (payload : List Byte)

/-- R183, R184: a CCF as the part builds it, before the padding and the check sequence. -/
def ccfBody : List Byte := beMac dst ++ (beMac src ++ ccfHeader k flags count seq payload.length payload)

/-- R184: the zero bytes that bring a CCF to the 64-byte minimum. -/
def ccfPad : List Byte := List.replicate (Config.minFrame - 4 - (ccfBody dst src k flags count seq payload).length) 0#8

theorem ccfFrame_eq : ccfFrame dst src k flags count seq payload =
    (ccfBody dst src k flags count seq payload ++ ccfPad dst src k flags count seq payload) ++
      fcsOf (ccfBody dst src k flags count seq payload ++ ccfPad dst src k flags count seq payload) := by
  have hbody : beMac dst ++ beMac src ++ be2 Config.ccfType.toNat ++ [0x01#8, k.code, flags, count] ++ be2 seq.toNat ++
      be2 payload.length ++ payload = ccfBody dst src k flags count seq payload := by
    have htype : be2 Config.ccfType.toNat = [0x88#8, 0xB5#8] := by decide
    rw [htype]
    simp [ccfBody, ccfHeader]
  rw [ccfFrame, hbody]
  rfl

theorem length_ccfBody : (ccfBody dst src k flags count seq payload).length = 22 + payload.length := by
  simp only [ccfBody, ccfHeader, beMac, be2, List.length_append, List.length_cons, length_beBytes]
  omega

theorem length_fcsOf (bs : List Byte) : (fcsOf bs).length = 4 := by simp [fcsOf, length_beBytes]

end

/-- R68: bytes followed by their own check sequence pass the check, and are what stands before it. -/
theorem withoutFcs_append (bs : List Byte) : withoutFcs (bs ++ fcsOf bs) = bs := by
  rw [withoutFcs, List.length_append, length_fcsOf, Nat.add_sub_cancel]
  exact List.take_left' rfl

theorem fcsOk_append (bs : List Byte) : fcsOk (bs ++ fcsOf bs) = true := by
  rw [fcsOk, withoutFcs_append, List.length_append, length_fcsOf, Nat.add_sub_cancel, List.drop_left' rfl]
  simp

section
variable {dst src : Mac} {k : CcfKind} {flags count : Byte} {seq : Word16} {n : Nat} {more : List Byte}

/-- R183: the fields of the bytes of a CCF, at their offsets. -/
theorem readCcf_fields {f : Frame} (hf : f = beMac dst ++ (beMac src ++ ccfHeader k flags count seq n more))
    (hn : n < 65536) : macAt f 0 = dst ∧ word16At f 12 = Config.ccfType ∧ readCcf f =
      { source := src, version := 1#8, kind := k.code, flags := flags, records := count.toNat, seq := seq, length := n,
        rest := (withoutFcs f).drop 22 } := by
  have hmac : ∀ m : Mac, (beMac m).length = 6 := fun m => length_beBytes 6 _
  have hbyte : ∀ i, byteAt f (12 + i) = byteAt (ccfHeader k flags count seq n more) i := fun i => by
    rw [hf, show 12 + i = 6 + (6 + i) by omega, byteAt_append_right (hmac dst), byteAt_append_right (hmac src)]
  have hword : ∀ i, word16At f (12 + i) = word16At (ccfHeader k flags count seq n more) i := fun i => by
    rw [word16At, word16At, Nat.add_assoc, hbyte, hbyte]
  have hsource : macAt f 6 = src := by rw [hf, macAt_append_right (hmac dst), macAt_beMac]
  have hseq : word16At f 18 = seq := by
    refine (hword 6).trans (Eq.trans ?_ (word16At_beBytes seq (be2 n ++ more)))
    rw [ccfHeader, be2, Nat.min_eq_left (by omega)]
    rfl
  have hlen : word16At f 20 = BitVec.ofNat 16 n := by
    refine (hword 8).trans (Eq.trans ?_ (word16At_bytes hn more))
    rw [ccfHeader, be2_of_lt seq.isLt, be2_of_lt hn]
    rfl
  have htype : (0x88#8 ++ 0xB5#8 : Word16) = Config.ccfType := by decide
  refine ⟨by rw [hf, macAt_beMac], (hword 0).trans htype, ?_⟩
  rw [readCcf, hsource, hseq, hlen, show byteAt f 14 = 1#8 from hbyte 2, show byteAt f 15 = k.code from hbyte 3,
    show byteAt f 16 = flags from hbyte 4, show byteAt f 17 = count from hbyte 5, BitVec.toNat_ofNat,
    Nat.mod_eq_of_lt hn]

end

/-- R71: a frame whose EtherType field is the CCF's is a CCF, and an untagged one. -/
theorem isCcf_of_type {f : Frame} (h : word16At f 12 = Config.ccfType) : isCcf f = true ∧ isUntagged f = true := by
  have htag : isTagAt f 12 = false := by rw [isTagAt, h]; decide
  exact ⟨by simp [isCcf, etherOffset, htag, h], by simp [isUntagged, htag]⟩

/-- Settles O9: the frame is body, padding and check sequence; the length bound keeps it within 1,522 bytes. -/
theorem builtCcfReadsBack : Obligations.BuiltCcfReadsBack := by
  intro dst src k flags count seq payload hlen
  let body := ccfBody dst src k flags count seq payload
  let pad := ccfPad dst src k flags count seq payload
  let f := ccfFrame dst src k flags count seq payload
  have hf : f = (body ++ pad) ++ fcsOf (body ++ pad) := ccfFrame_eq dst src k flags count seq payload
  have hbody : body.length = 22 + payload.length := length_ccfBody dst src k flags count seq payload
  have hpad : pad.length = 60 - body.length := List.length_replicate
  have hflen : f.length = body.length + pad.length + 4 := by
    rw [hf, List.length_append, length_fcsOf, List.length_append]
  have hok : frameOk f = true := by
    have hfcs : fcsOk f = true := hf ▸ fcsOk_append (body ++ pad)
    simp only [frameOk, hfcs, frameLengthOk, Bool.and_true, Bool.and_eq_true, decide_eq_true_eq]
    show 64 ≤ f.length ∧ f.length ≤ 1522
    omega
  obtain ⟨hdst, htype, hread⟩ := readCcf_fields (f := f) (dst := dst) (src := src) (k := k) (flags := flags)
    (count := count) (seq := seq) (n := payload.length) (more := payload ++ (pad ++ fcsOf (body ++ pad)))
    (by rw [hf]; simp [body, ccfBody, ccfHeader]) (by omega)
  obtain ⟨hccf, huntagged⟩ := isCcf_of_type htype
  have hrest : (readCcf f).payload = payload := by
    have hdrop : body.drop 22 = payload := by
      have hsplit : body = (beMac dst ++ (beMac src ++ ccfHeader k flags count seq payload.length [])) ++ payload := by
        simp [body, ccfBody, ccfHeader]
      rw [hsplit]
      exact List.drop_left' (by simp [ccfHeader, beMac, be2, length_beBytes])
    rw [hread, Ccf.payload, hf, withoutFcs_append, List.drop_append_of_le_length (by omega), hdrop]
    exact List.take_left' rfl
  refine ⟨?_, hdst, ?_, ?_, ?_, ?_, ?_, ?_, ?_, hrest⟩
  · show isCcfOf k f = true
    simp [isCcfOf, hok, hccf, huntagged, hread]
  all_goals show _ = _; rw [show readCcf (ccfFrame dst src k flags count seq payload) = _ from hread]
  exact kindOf_code k

/-! ## Frames dropped at a port -/

theorem receive_of_bad {p : Port} {f : Frame} (h : frameOk f = false) : s.receive p f = s.inc .rxError := by
  simp [State.receive, h]

theorem receive_of_ccf {p : Port} {f : Frame} (hok : frameOk f = true) (hc : isCcf f = true) :
    s.receive p f = (s.inc (.framesIn p)).ccfFrameIn p f := by simp [State.receive, hok, hc]

theorem receive_of_data {p : Port} {f : Frame} (h : isDataFrame f = true) :
    s.receive p f = (s.inc (.framesIn p)).dataFrame p f := by
  simp only [isDataFrame, Bool.and_eq_true, Bool.not_eq_true'] at h
  simp [State.receive, h.1, h.2]

theorem frameOk_of_bad {f : Frame}
    (h : f.length < 64 ∨ 1522 < f.length ∨ f.drop (f.length - 4) ≠ fcsOf (f.take (f.length - 4))) : frameOk f = false := by
  rcases h with h | h | h
  · simp [frameOk, frameLengthOk, h]
  · simp [frameOk, frameLengthOk, h]
  · simp [frameOk, fcsOk, withoutFcs, h]

theorem of_ite_some {c : Prop} [Decidable c] {x k : CcfKind} {rest : Option CcfKind}
    (h : (if c then some x else rest) = some k) : (c ∧ x = k) ∨ rest = some k := by
  split at h
  · rename_i hc
    exact .inl ⟨hc, Option.some.inj h⟩
  · exact .inr h

/-- R183: a kind is named by its own code alone. -/
theorem code_of_kindOf {b : Byte} {k : CcfKind} (h : kindOf b = some k) : b = k.code := by
  unfold kindOf at h
  iterate 10
    rcases of_ite_some h with ⟨hb, rfl⟩ | h
    · exact hb
  cases h

/-- R185: what a CCF has passed when the five checks give its kind. -/
theorem of_ccfCheck {p : Port} {c : Ccf} {k : CcfKind} (h : s.ccfCheck p c = some k) :
    c.version = 1#8 ∧ c.kind = k.code ∧ s.takenAt k p = true ∧ c.length ≤ c.rest.length ∧ bodyOk k c = true := by
  unfold State.ccfCheck at h
  split at h
  · cases h
  · rename_i hv
    split at h
    · cases h
    · rename_i k' hk
      split at h
      · cases h
      · rename_i ht
        split at h
        · cases h
        · rename_i hl
          split at h
          · cases h
          · rename_i hb
            cases h
            exact ⟨not_not.mp hv, code_of_kindOf hk, by simpa using ht, by omega, by simpa using hb⟩

theorem takeCcf_of_shut {p : Port} (c : Ccf) (h : s.gateTakes p = false) : s.takeCcf p c = s.inc .ccfPortDrop := by
  simp [State.takeCcf, h]

theorem takeCcf_of_unchecked {p : Port} {c : Ccf} (hg : s.gateTakes p = true) (h : s.ccfCheck p c = none) :
    s.takeCcf p c = s.inc .ccfMalformed := by simp [State.takeCcf, hg, h]

/-- R72: the ports at which CCFs are taken. -/
theorem gateTakes_iff (p : Port) :
    s.gateTakes p = true ↔ p = .aIn ∨ p = .bIn ∨ (p = .lan ∧ s.param .lanManagement = 1) := by
  cases p <;> simp [State.gateTakes, State.lanOn]

theorem gateTakes_of_refusing {p : Port}
    (h : p = .wan ∨ p = .aOut ∨ p = .bOut ∨ (p = .lan ∧ s.param .lanManagement ≠ 1)) : s.gateTakes p = false := by
  rw [← Bool.not_eq_true, gateTakes_iff]
  rcases h with rfl | rfl | rfl | ⟨rfl, h⟩ <;> simp [*]

/-- Settles O12: a bad frame stops at the check of R68, a CCF at its tag, at the port gate or at one of the five checks. -/
theorem framesAreDroppedAtThePort : Obligations.FramesAreDroppedAtThePort := by
  refine ⟨fun p f s hbad => ?_, fun p f s hok hc => ⟨fun hu hp => ?_, fun hu => ?_, fun hu hp hno => ?_⟩⟩
  · refine ⟨s.inc .rxError, congrArg Host.Outcome.next (receive_of_bad (frameOk_of_bad hbad)), rfl, ?_, fun d hd => ?_⟩
    · rw [count_inc, if_pos rfl]
    · rw [count_inc, if_neg hd]
  all_goals
    refine congrArg Host.Outcome.next ((receive_of_ccf hok hc).trans ?_)
    rw [State.ccfFrameIn, hu]
  · exact takeCcf_of_shut _ (gateTakes_of_refusing (s := s.inc _) hp)
  · rfl
  · refine takeCcf_of_unchecked ((gateTakes_iff (s := s.inc _) p).mpr hp) ?_
    rw [Option.eq_none_iff_forall_ne_some]
    intro k hk
    exact hno ⟨k, of_ccfCheck (s := s.inc _) hk⟩

end Sys2Proof.FramePath

/-! Data frames that touch no entry (R70, R73 to R84): the port that may not emit, the classes PASS, DISCARD and SHADOW, and a
frame of class TRACK that matches nothing and opens nothing. -/

namespace Sys2Proof.FramePath

open Sys2Proof Sys2Proof.Machine Sys2Proof.Laws Sys2Proof.SessionTable

variable {s t u : State} {p q : Port} {f : Frame}

theorem refuses_of_not_mayEmit (h : ¬ s.mayEmit p) : s.refusesPort p = true := by
  unfold State.mayEmit at h
  unfold State.refusesPort
  cases hp : p.fw? with
  | none => simp [hp] at h
  | some g =>
    simp only [hp, Option.some.injEq, forall_eq', not_or, not_and] at h
    obtain ⟨hactive, hlate⟩ := h
    cases hw : s.role.lateWindow.isRunning with
    | false => simp [State.oldActive, hactive, hw]
    | true => simp [State.oldActive, hactive, hw, hlate hw]

/-- R81, R83: a data frame from a port that may not emit is dropped before it is classed. -/
theorem dataFrame_of_refused (h : s.refusesPort p = true) : s.dataFrame p f = s.inc .standbyEmit := if_pos h

/-- R68, R81, R83: a data frame from a port that may emit is handed on by its class. -/
theorem exec_dataFrame (hd : isDataFrame f = true) (hm : s.mayEmit p) :
    exec (.dataFrame p f) s = .next ((s.inc (.framesIn p)).forwardByClass p (readFrame f) f) := by
  have href : (s.inc (.framesIn p)).refusesPort p = false := not_refuses_of_mayEmit hm
  refine congrArg Host.Outcome.next ((receive_of_data hd).trans ?_)
  simp [State.dataFrame, href]

/-- Settles O13: steering refuses the port, and the frame is counted in and dropped. -/
theorem standbyEmissionIsDropped : Obligations.StandbyEmissionIsDropped := by
  intro p f s hd hm
  have href : (s.inc (.framesIn p)).refusesPort p = true := refuses_of_not_mayEmit hm
  refine ⟨(s.inc (.framesIn p)).inc .standbyEmit,
    congrArg Host.Outcome.next ((receive_of_data hd).trans (dataFrame_of_refused href)), rfl, ?_, ?_, fun d h1 h2 => ?_⟩
  · rw [count_inc, if_pos rfl, count_inc, if_neg nofun]
  · rw [count_inc, if_neg nofun, count_inc, if_pos rfl]
  · rw [count_inc, if_neg h1, count_inc, if_neg h2]

/-! ## The classes -/

theorem forwardByClass_of_pass {r : Reading} (h : s.classify r = .pass) :
    s.forwardByClass p r f = s.handTx (s.steer p) f := by
  unfold State.forwardByClass
  rw [h]

theorem forwardByClass_of_discard {r : Reading} (h : s.classify r = .discard) :
    s.forwardByClass p r f = s.inc .discard := by
  unfold State.forwardByClass
  rw [h]

theorem forwardByClass_of_shadow {r : Reading} (h : s.classify r = .shadow) :
    s.forwardByClass p r f = s.forwardShadow p f := by
  unfold State.forwardByClass
  rw [h]

theorem handTx_of_hasRoom (h : s.hasRoom q 1) : s.handTx q f = s.queued q f :=
  handTx_of_canHand (canHand_of_hasRoom h)

theorem handTx_of_no_room (h : ¬ s.hasRoom q 1) : s.handTx q f = s.inc .txDrop := by
  rcases handTx_cases s q f with ⟨hc, -⟩ | ⟨-, e⟩
  · simp only [State.canHand, Bool.and_eq_true, beq_iff_eq, decide_eq_true_eq] at hc
    exact absurd hc h
  · exact e

/-! ## SHADOW -/

theorem forwardShadow_alone (hst : s.steersTo p q) (hroom : s.hasRoom q 1) (h : s.shadowPort p = none) :
    s.forwardShadow p f = s.queued q f := by
  simp [State.forwardShadow, h, steer_of_steersTo hst, handTx_of_hasRoom hroom]

/-- R80: a frame and its copy leave by two ports, so that the first takes no room from the second. -/
theorem forwardShadow_both {r : Port} (hst : s.steersTo p q) (hroom : s.hasRoom q 1) (h : s.shadowPort p = some r)
    (hne : r ≠ q) (hr : s.hasRoom r 1) : s.forwardShadow p f = (s.queued q f).queued r f := by
  have hport : (s.queued q f).port r = s.port r := by rw [State.queued, port_setPort, if_neg hne]
  have hr' : (s.queued q f).hasRoom r 1 := by
    unfold State.hasRoom at hr ⊢
    rwa [hport]
  simp [State.forwardShadow, h, steer_of_steersTo hst, handTx_of_hasRoom hroom, handTx_of_hasRoom hr']

theorem standby_of_usable (h : s.usable s.role.active.other = true) : s.standby = some s.role.active.other := if_pos h

theorem standby_of_unusable (h : s.usable s.role.active.other = false) : s.standby = none := by simp [State.standby, h]

theorem shadowPort_none (h : p.fw? ≠ none ∨ s.usable s.role.active.other = false) : s.shadowPort p = none := by
  rcases h with h | h
  · cases p with
    | lan => exact absurd rfl h
    | wan => exact absurd rfl h
    | _ => rfl
  · cases p <;> simp [State.shadowPort, standby_of_unusable h]

theorem inPort_other_ne (g : Fw) : g.other.inPort ≠ g.inPort := by cases g <;> decide

theorem outPort_other_ne (g : Fw) : g.other.outPort ≠ g.outPort := by cases g <;> decide

/-! ## TRACK, with no entry and no qualifying SYN -/

theorem not_qualifiesSyn {v : SessionView} (h : p = .lan ∨ p = .aIn ∨ p = .bIn ∨ v.proto ≠ .tcp ∨
    ∃ g, v.seg = some g ∧ (g.syn = false ∨ g.ackFlag = true ∨ g.rst = true)) : qualifiesSyn p v = false := by
  unfold qualifiesSyn
  cases hv : v.seg with
  | none => rfl
  | some g =>
    rcases h with rfl | rfl | rfl | h | ⟨g', hg, h⟩
    · rfl
    · rfl
    · rfl
    · simp [h]
    · rw [hv, Option.some.injEq] at hg
      subst hg
      rcases h with h | h | h <;> simp [h]

theorem trackedFrame_unmatched {v : SessionView} (hst : s.steersTo p q) (hroom : s.hasRoom q 1)
    (hl : s.lookup (frameKey p v) = none) (hq : qualifiesSyn p v = false) : s.trackedFrame p v f = s.queued q f := by
  simp [State.trackedFrame, hl, steer_of_steersTo hst, canHand_of_hasRoom hroom, handTx_of_hasRoom hroom,
    State.afterMiss, hq]

/-- Settles O14: one equation per class, with the room of the queues that a frame is handed to. -/
theorem untrackedFramesAreSteered : Obligations.UntrackedFramesAreSteered := by
  refine ⟨fun p q f s hd hm hst => ⟨fun hc hr => ?_, fun hc hr => ?_, fun hc => ?_⟩,
    fun p q f s hd hm hst hc hr => ⟨fun hp hu hr2 => ?_, fun hp hu hr2 => ?_, fun hn => ?_⟩,
    fun p q f s v hd hm hst hr hv hc hl hq => (exec_trackedFrame hd hm hv hc).trans (congrArg Host.Outcome.next
      (trackedFrame_unmatched (s := s.inc _) hst hr hl (not_qualifiesSyn hq)))⟩
  all_goals
    refine (exec_dataFrame hd hm).trans (congrArg Host.Outcome.next ?_)
    let w := s.inc (.framesIn p)
    have hsteer : w.steer p = q := steer_of_steersTo (s := w) hst
  · rw [forwardByClass_of_pass (s := w) hc, hsteer, handTx_of_hasRoom (s := w) hr]
  · rw [forwardByClass_of_pass (s := w) hc, hsteer, handTx_of_no_room (s := w) hr]
  · exact forwardByClass_of_discard (s := w) hc
  · subst hp
    have hq : q = s.role.active.inPort := hsteer.symm
    rw [forwardByClass_of_shadow (s := w) hc]
    exact forwardShadow_both (s := w) hst hr (congrArg (Option.map Fw.inPort) (standby_of_usable (s := w) hu))
      (hq ▸ inPort_other_ne _) hr2
  · subst hp
    have hq : q = s.role.active.outPort := hsteer.symm
    rw [forwardByClass_of_shadow (s := w) hc]
    exact forwardShadow_both (s := w) hst hr (congrArg (Option.map Fw.outPort) (standby_of_usable (s := w) hu))
      (hq ▸ outPort_other_ne _) hr2
  · rw [forwardByClass_of_shadow (s := w) hc]
    exact forwardShadow_alone (s := w) hst hr (shadowPort_none hn)

end Sys2Proof.FramePath

/-! The rows of the Prefix Class Table, written and read (R78, R205). -/

namespace Sys2Proof.FramePath

open Sys2Proof Sys2Proof.Machine Sys2Proof.Laws Sys2Proof.SessionTable Sys2Proof.SessionDeclarations

variable {s t u : State} {q : Request} {rest : List Request} {args : List Byte} {n : Fin 32} {fam : Family}

/-! ## SET_PREFIX -/

theorem exec_setPrefix (hh : s.heads q rest 10) (hp : s.permitsWrite q.port = true) (hn : 5 ≤ q.args.length) :
    exec .setPrefix s = .next ((State.setPrefixOf { s with requests := rest } q.args).send q) :=
  congrArg Host.Outcome.next (serve_write hh hp rfl hn State.setPrefixOf)

/-- R205: good arguments write the row that they number. -/
theorem setPrefixOf_of_good (h0 : (byteAt args 0).toNat = n.val) (h2 : familyOf (byteAt args 2) = some fam)
    (h1 : (byteAt args 1).toNat ≤ 1) (h4 : (byteAt args 4).toNat ≤ 3) (hl : 5 + fam.addrBytes ≤ args.length) :
    s.setPrefixOf args =
      { status := if (byteAt args 3).toNat ≤ fam.bits then .ok else .clamped
        results := rowResults n.val (readRow fam args)
        state := { s with prefixes := s.prefixes.set n (readRow fam args) } } := by
  have hk : (byteAt args 0).toNat < 32 := h0 ▸ n.isLt
  obtain rfl : n = ⟨(byteAt args 0).toNat, hk⟩ := Fin.ext h0.symm
  simp [State.setPrefixOf, h2, hk, h1, h4, hl]

/-- R188: a family is named by its own code alone. -/
theorem code_of_familyOf {b : Byte} (h : familyOf b = some fam) : b = BitVec.ofNat 8 fam.code := by
  unfold familyOf at h
  split_ifs at h with h4 h6
  · cases h
    exact h4
  · cases h
    exact h6

/-- R205: a row, valid flag, family or class that is none, and too few address bytes. -/
theorem setPrefixOf_of_bad (h : 32 ≤ (byteAt args 0).toNat ∨ 2 ≤ (byteAt args 1).toNat ∨
    (byteAt args 2 ≠ 4#8 ∧ byteAt args 2 ≠ 6#8) ∨ 4 ≤ (byteAt args 4).toNat ∨
    (byteAt args 2 = 4#8 ∧ args.length < 5 + 4) ∨ (byteAt args 2 = 6#8 ∧ args.length < 5 + 16)) :
    s.setPrefixOf args = s.refuse .badArg := by
  unfold State.setPrefixOf
  split
  · rfl
  · rename_i fam hfam
    split
    · rename_i hrow
      refine if_neg (fun ⟨hvalid, hcls, hlen⟩ => ?_)
      have hcode := code_of_familyOf hfam
      rcases h with h | h | ⟨h4, h6⟩ | h | ⟨hb, hl⟩ | ⟨hb, hl⟩
      · omega
      · omega
      · cases fam with
        | v4 => exact h4 hcode
        | v6 => exact h6 hcode
      · omega
      · cases fam with
        | v4 => exact absurd hlen (Nat.not_le.mpr hl)
        | v6 => exact absurd (hcode.symm.trans hb) (by decide)
      · cases fam with
        | v4 => exact absurd (hcode.symm.trans hb) (by decide)
        | v6 => exact absurd hlen (Nat.not_le.mpr hl)
    · rfl

theorem classOf_code (c : FrameClass) : classOf c.code = c := by cases c <;> rfl

theorem class_byte (c : FrameClass) : (BitVec.ofNat 8 c.code).toNat = c.code := by cases c <;> rfl

/-- R205: the arguments of a SET_PREFIX, and the row that they give. -/
def rowArgs (n : Fin 32) (valid : Bool) (fam : Family) (len : Byte) (cls : FrameClass) (a : IpAddr)
    (more : List Byte) : List Byte :=
  [BitVec.ofNat 8 n.val, if valid then 1#8 else 0#8, BitVec.ofNat 8 fam.code, len, BitVec.ofNat 8 cls.code] ++
    beBytes fam.addrBytes a.toNat ++ more

theorem readRow_rowArgs {valid : Bool} {len : Byte} {cls : FrameClass} {a : IpAddr} (more : List Byte)
    (ha : fam = .v4 → a.toNat < 2 ^ 32) : readRow fam (rowArgs n valid fam len cls a more) =
      { valid := valid, family := fam, addr := a, length := min len.toNat fam.bits, cls := cls } := by
  have haddr : ipAt (rowArgs n valid fam len cls a more) 5 fam.addrBytes = a := by
    rw [rowArgs, List.append_assoc, ipAt_append_right (n := 5) rfl, ipAt_beBytes ha]
  have hvalid : ((if valid then 1#8 else 0#8) == 1#8) = valid := by cases valid <;> rfl
  have hcls : classOf (BitVec.ofNat 8 cls.code).toNat = cls := by rw [class_byte, classOf_code]
  rw [readRow, haddr]
  exact congrArg₂ (fun v c => PrefixRow.mk v fam a (min len.toNat fam.bits) c) hvalid hcls

/-- R205: SET_PREFIX of good arguments writes their row and answers with it. -/
theorem exec_setPrefix_row {valid : Bool} {len : Byte} {cls : FrameClass} {a : IpAddr} {more : List Byte}
    (hh : s.heads q rest 10) (hp : s.permitsWrite q.port = true) (ha : fam = .v4 → a.toNat < 2 ^ 32)
    (hargs : q.args = rowArgs n valid fam len cls a more) :
    let row : PrefixRow := { valid := valid, family := fam, addr := a, length := min len.toNat fam.bits, cls := cls }
    exec .setPrefix s = .next { s.answered q rest (if len.toNat ≤ fam.bits then .ok else .clamped) (rowResults n.val row) with
      prefixes := s.prefixes.set n row } := by
  intro row
  have hlen : 5 + fam.addrBytes ≤ q.args.length := by
    rw [hargs]
    simp [rowArgs, length_beBytes]
    omega
  have hrow : (byteAt q.args 0).toNat = n.val := by rw [hargs]; exact toNat_byte (by omega)
  have hfam : familyOf (byteAt q.args 2) = some fam := by rw [hargs]; exact familyOf_code fam
  have hvalid : (byteAt q.args 1).toNat ≤ 1 := by
    have hb : byteAt q.args 1 = if valid then 1#8 else 0#8 := by rw [hargs]; rfl
    rw [hb]
    cases valid <;> decide
  have hcls : (byteAt q.args 4).toNat ≤ 3 := by
    have hb : byteAt q.args 4 = BitVec.ofNat 8 cls.code := by rw [hargs]; rfl
    rw [hb]
    cases cls <;> decide
  have hread : readRow fam q.args = row := by rw [hargs]; exact readRow_rowArgs more ha
  have hlength : byteAt q.args 3 = len := by rw [hargs]; rfl
  rw [exec_setPrefix hh hp (by omega), setPrefixOf_of_good hrow hfam hvalid hcls hlen, hread, hlength,
    send_of_canHand (canHand_of_heads hh rfl)]
  by_cases hl : len.toNat ≤ fam.bits
  · simp only [hl, if_true]; rfl
  · simp only [hl, if_false]; rfl

/-! ## GET_PREFIX -/

theorem getPrefixOf_row (h0 : (byteAt args 0).toNat = n.val) :
    s.getPrefixOf args = { status := .ok, results := rowResults n.val s.prefixes[n], state := s } := by
  have hk : (byteAt args 0).toNat < 32 := h0 ▸ n.isLt
  obtain rfl : n = ⟨(byteAt args 0).toNat, hk⟩ := Fin.ext h0.symm
  exact dif_pos hk

theorem exec_getPrefix (hh : s.heads q rest 11) (hp : s.permitsRead q.port = true) (hn : 1 ≤ q.args.length) :
    exec .getPrefix s = .next ((State.getPrefixOf { s with requests := rest } q.args).send q) :=
  congrArg Host.Outcome.next (serve_read hh hp rfl hn State.getPrefixOf)

/-- Settles O54: the arguments spell one row, whose REPLY carries the same bytes; each bad field is refused. -/
theorem prefixRowsAreWrittenAndRead : Obligations.PrefixRowsAreWrittenAndRead := by
  intro s q rest n
  refine ⟨fun valid fam len cls a more hh hp ha => ?_, fun hh hp hn hbad => ?_, fun more hh hp hargs => ?_⟩
  · have hflag : beFlag valid = [if valid then 1#8 else 0#8] := by cases valid <;> rfl
    cases fam with
    | v4 =>
      intro code size most hargs
      refine (exec_setPrefix_row (fam := .v4) hh hp ha hargs).trans ?_
      rw [rowResults, hflag]
      rfl
    | v6 =>
      intro code size most hargs
      refine (exec_setPrefix_row (fam := .v6) hh hp ha hargs).trans ?_
      rw [rowResults, hflag]
      rfl
  · rw [exec_setPrefix hh hp hn, setPrefixOf_of_bad hbad]
    exact congrArg Host.Outcome.next (send_answered hh rfl)
  · have hrow : (byteAt q.args 0).toNat = n.val := by rw [hargs]; exact toNat_byte (by omega)
    rw [exec_getPrefix hh hp (by simp [hargs]), getPrefixOf_row hrow]
    exact congrArg Host.Outcome.next (send_answered hh rfl)

end Sys2Proof.FramePath

/-! Links and transmission (R69, R70, R129): a link that comes UP, and a frame sent. -/

namespace Sys2Proof.FramePath

open Sys2Proof Sys2Proof.Machine Sys2Proof.Laws Sys2Proof.SessionTable Sys2Proof.Cutover

variable {s t u : State}

/-! ## A link that comes UP, and a frame sent -/

/-- R69: PORT_LINK latches once and keeps every link. -/
theorem raisePortLink_event (s : State) (p : Port) (l : Link) (ev : EventId) :
    (s.raisePortLink p l).event ev = if ev = .portLink then (s.event .portLink).next else s.event ev := raise_event _ _ _ _

theorem raisePortLink_link (s : State) (p q : Port) (l : Link) : ((s.raisePortLink p l).port q).link = (s.port q).link :=
  ((raise_held s _ _).sends q).1

theorem linkRise_of_down {p : Port} (h : (s.port p).link = .down) :
    s.linkRise p = (s.setPort p { s.port p with link := .up }).raisePortLink p .up := if_neg (by rw [h]; nofun)

theorem transmit_of_empty {p : Port} (h : (s.port p).tx = []) : s.transmit p = s := by simp [State.transmit, h]

theorem transmit_of_cons {p : Port} {f : Frame} {rest : List Frame} (h : (s.port p).tx = f :: rest) :
    s.transmit p = (s.setPort p { link := (s.port p).link, tx := rest }).inc (.framesOut p) := by
  simp [State.transmit, h]

/-- Settles O39: the rise replaces one link and raises one event; a transmission takes the head of one queue. -/
theorem linkRiseAndTransmission : Obligations.LinkRiseAndTransmission := by
  refine ⟨fun p s => ⟨fun hup => congrArg Host.Outcome.next (if_pos hup), fun hdown => ?_⟩,
    fun p s => ⟨fun h => congrArg Host.Outcome.next (transmit_of_empty h),
      fun f rest h => congrArg Host.Outcome.next (transmit_of_cons h)⟩⟩
  let v := s.setPort p { s.port p with link := .up }
  refine ⟨v.raisePortLink p .up, congrArg Host.Outcome.next (linkRise_of_down hdown), ?_, ?_, fun q hq => ?_, ?_,
    fun ev hev => ?_, fun c hc => raise_count v _ _ hc⟩
  · rw [raisePortLink_link, port_setPort, if_pos rfl]
  · exact Sends.trans (t := v) rfl (raise_sends v _ _)
  · rw [raisePortLink_link, port_setPort, if_neg hq]
  · exact (raisePortLink_event v p .up _).trans (if_pos rfl)
  · exact (raisePortLink_event v p .up _).trans (if_neg hev)

end Sys2Proof.FramePath

/-! What a change of a firewall's health leaves of the ports that are DOWN: a frame is handed to a port that is UP, so that a queue
emptied by a loss of link stays empty (R70). -/

namespace Sys2Proof.FramePath

open Sys2Proof Sys2Proof.Machine Sys2Proof.Laws Sys2Proof.SessionTable Sys2Proof.Cutover

/-- From `s` to `t` every port whose link is DOWN is as it was. -/
def Spares (s t : State) : Prop := ∀ q, (s.port q).link = .down → t.port q = s.port q

variable {s t u : State}

theorem Spares.refl (s : State) : Spares s s := fun _ _ => rfl

theorem Spares.trans (h : Spares s t) (k : Spares t u) : Spares s u := fun q hq => by
  have ht := h q hq
  rw [k q (by rw [ht]; exact hq), ht]

theorem Spares.ite {c : Prop} [Decidable c] {a b : State} (ha : Spares s a) (hb : Spares s b) :
    Spares s (if c then a else b) := by split <;> assumption

theorem Spares.foldl {α : Type} {g : State → α → State} (hg : ∀ v x, Spares v (g v x)) (xs : List α) (s : State) :
    Spares s (xs.foldl g s) := by
  induction xs generalizing s with
  | nil => exact .refl s
  | cons x xs ih => exact (hg s x).trans (ih _)

theorem spares_of_ports (h : t.ports = s.ports) : Spares s t := fun q _ => by simp only [State.port, h]

theorem role_spares (s : State) (r : Role) : Spares s { s with role := r } := fun _ _ => rfl

theorem table_spares (s : State) (tb : Table) : Spares s { s with table := tb } := fun _ _ => rfl

theorem mirror_spares (s : State) (m : Mirror) : Spares s { s with mirror := m } := fun _ _ => rfl

theorem park_spares (s : State) (p : Park) : Spares s { s with park := p } := fun _ _ => rfl

theorem inc_spares (s : State) (c : Counter) : Spares s (s.inc c) := fun _ _ => rfl

theorem spares_of_lanes (h : Lanes s t) : Spares s t := spares_of_ports h.ports

theorem spares_of_marks (h : Marks s t) : Spares s t := spares_of_ports (by rw [h])

/-! ## Frames handed over -/

/-- R70: a port that is DOWN is handed nothing. -/
theorem handTx_spares (s : State) (p : Port) (f : Frame) : Spares s (s.handTx p f) := fun q hq => by
  rcases handTx_cases s p f with ⟨hc, e⟩ | ⟨-, e⟩ <;> rw [e]
  · have hne : q ≠ p := by
      rintro rfl
      simp [State.canHand, hq] at hc
    rw [State.queued, port_setPort, if_neg hne]
  · rfl

theorem raise_spares (s : State) (ev : EventId) (bs : List Byte) : Spares s (s.raise ev bs) :=
  (spares_of_ports (t := s.latch ev) rfl).trans (.foldl (fun v p => handTx_spares v p _) _ _)

theorem sendRoleChanges_spares (s : State) (ph : CutPhase) (a b : RoleName) : Spares s (s.sendRoleChanges ph a b) := by
  have k : ∀ (v : State) (c : Bool) (f : Fw), Spares v (if c then v.sendRole f else v) := fun v c f =>
    .ite (handTx_spares v _ _) (.refl v)
  exact (k s _ .a).trans (k _ _ .b)

theorem compareTable_spares (s : State) : Spares s s.compareTable := by
  have k : ∀ (v : State) (n : Fin 3), Spares v (v.compareTableLevel n) := fun v n =>
    .ite ((table_spares v _).trans (raise_spares _ _ _)) (.refl v)
  exact ((k s 0).trans (k _ 1)).trans (k _ 2)

theorem comparePark_spares (s : State) : Spares s s.comparePark := by
  have k : ∀ (v : State) (n : Fin 3), Spares v (v.compareParkLevel n) := fun v n =>
    .ite ((park_spares v _).trans (raise_spares _ _ _)) (.refl v)
  exact ((k s 0).trans (k _ 1)).trans (k _ 2)

/-! ## Entries freed, and the mirror abandoned -/

theorem discardChain_spares (s : State) (h : Nat) : Spares s (s.discardChain h) := by
  have k : ∀ (v : State) (p : Parked), Spares v ((v.freeCells p).inc .parkDiscarded) := fun v p =>
    ((park_spares v _).trans (comparePark_spares _)).trans (inc_spares _ _)
  unfold State.discardChain
  split
  · exact ((Spares.foldl k _ s).trans (spares_of_lanes (modifyEntry_lanes _ h _))).trans (park_spares _ _)
  · exact .refl s

theorem unmark_ports (s : State) (h : Nat) : (s.unmark h).ports = s.ports := by
  cases hm : s.isMarked h with
  | false => rw [unmark_of_unmarked hm]
  | true =>
    rw [unmark_of_marked hm, toSettle_eq]
    exact (modifyEntry_lanes { s with role := _ } h _).ports

theorem removeEntry_spares (s : State) (h : Nat) (e : Entry) : Spares s (s.removeEntry h e) := by
  unfold State.removeEntry
  refine Spares.trans ?_ (compareTable_spares _)
  exact spares_of_ports rfl

theorem freeEntry_spares (s : State) (h : Nat) : Spares s (s.freeEntry h) := by
  cases he : s.entry? h with
  | none => rw [freeEntry_of_none he]; exact .refl s
  | some e =>
    rw [freeEntry_of_entry he]
    have kclear : Spares s (cleared s h e) :=
      (((spares_of_lanes (unblocked_lanes s h e)).trans (spares_of_lanes (unqueue_lanes _ h))).trans
        (spares_of_lanes (settleWalk_lanes _ h))).trans ((discardChain_spares _ h).trans (spares_of_ports (unmark_ports _ h)))
    exact kclear.trans (removeEntry_spares _ h e)

theorem freeAll_spares (s : State) (hs : List Nat) : Spares s (s.freeAll hs) := .foldl freeEntry_spares hs s

theorem abandonMirror_spares (s : State) (target : Option Fw) (st : MirrorState) (cursor : Nat) (begin : Bool) :
    Spares s (s.abandonMirror target st cursor begin) :=
  (spares_of_ports (t := abandoned s target st cursor begin) rfl).trans (freeAll_spares _ _)

theorem walkStart_spares (s : State) (f : Fw) : Spares s (s.walkStart f) := by
  have k : ∀ v : State, Spares v (v.sendBatch true [] []) := fun v => by
    unfold State.sendBatch
    dsimp only
    split
    · exact ((mirror_spares v _).trans (inc_spares _ _)).trans (handTx_spares _ _ _)
    · exact (mirror_spares v _).trans (inc_spares _ _)
  exact ((abandonMirror_spares s _ _ _ _).trans (k _)).trans (inc_spares _ _)

theorem retarget_spares (s : State) : Spares s s.retarget := by
  rcases retarget_cases s with ⟨h, -⟩ | ⟨f, -, h⟩ | ⟨-, h⟩ <;> rw [h]
  · exact .refl s
  · exact walkStart_spares s f
  · exact abandonMirror_spares s _ _ _ _

theorem dropTarget_spares (s : State) : Spares s s.dropTarget := .ite (.refl s) (abandonMirror_spares s _ _ _ _)

/-! ## Planned cutovers, and the tests that end an event -/

theorem prePushOne_lanes (s : State) (h : Nat) : Lanes s (s.prePushOne h) := by
  unfold State.prePushOne
  split
  · exact .refl s
  · split
    · exact .refl s
    · refine .ite (.refl s) ?_
      split
      · exact toUrgentTail_lanes s h
      · exact .refl s
      · exact .ite (.refl s) (.ite (.ite (lanePlace_lanes s _ _ _ _) (.refl s)) (lanePlace_lanes s _ _ _ _))
    · exact .ite (toUrgentTail_lanes s h) (.refl s)

theorem beginPlanned_spares (s : State) (r : CutReason) : Spares s (s.beginPlanned r) := by
  refine Spares.trans ?_ (spares_of_lanes (.foldl prePushOne_lanes _ _))
  refine Spares.trans ?_ (role_spares _ _)
  refine Spares.trans ?_ (handTx_spares _ _ _)
  refine Spares.trans ?_ (raise_spares _ _ _)
  exact spares_of_ports rfl

theorem preemptTest_spares (s : State) : Spares s s.preemptTest := .ite (beginPlanned_spares s _) (.refl s)

theorem joinRelease_ports (s : State) (h : Nat) : (s.joinRelease h).ports = s.ports := by
  unfold State.joinRelease
  split
  · split <;> rfl
  · rfl

theorem clearMark_spares (s : State) (h : Nat) (how : MarkEnd) : Spares s (s.clearMark h how) := by
  have ktally : Spares s (s.tallyMark how) := by cases how <;> exact spares_of_ports rfl
  exact .ite ((ktally.trans (spares_of_ports (unmark_ports _ h))).trans (spares_of_ports (joinRelease_ports _ h))) (.refl s)

theorem clearAllMarks_spares (s : State) (how : MarkEnd) : Spares s (s.clearAllMarks how) :=
  .foldl (fun v h => clearMark_spares v h how) _ s

theorem settleEnded_spares (s : State) : Spares s (settleEnded s) :=
  ((clearAllMarks_spares s .released).trans (role_spares _ _)).trans (raise_spares _ _ _)

theorem endSettle_spares (s : State) : Spares s s.endSettle :=
  ((settleEnded_spares s).trans (retarget_spares _)).trans (preemptTest_spares _)

theorem endWalk_spares (s : State) : Spares s s.endWalk :=
  ((mirror_spares s _).trans (raise_spares _ _ _)).trans (preemptTest_spares _)

theorem finish_spares (s : State) : Spares s s.finish := by
  have ksettle : Spares s (if s.settleDone then s.endSettle else s) := .ite (endSettle_spares s) (.refl s)
  exact .ite (ksettle.trans (endWalk_spares _)) ksettle

/-! ## TRANSFER, and the failures that change the roles -/

theorem makeTransfer_spares (s : State) : Spares s s.makeTransfer := by
  have kswept : Spares s (swept s) := (spares_of_ports (t := roleMoved s) rfl).trans (freeAll_spares _ _)
  have ksettle : ∀ v : State, Spares v v.toSettle := fun v => spares_of_ports (by rw [toSettle_eq])
  rw [makeTransfer_eq]
  have krecord : ∀ v : State, Spares v v.recordTransfer := fun v => spares_of_ports rfl
  exact (((kswept.trans (spares_of_marks (markEntries_marks _))).trans (krecord _)).trans (ksettle _)).trans
    (finish_spares _)

theorem unplanned_spares (s : State) (r : CutReason) : Spares s (s.unplanned r) := by
  have kopen : Spares s (s.openCutover .unplanned r) := role_spares s _
  unfold State.unplanned
  exact (kopen.trans (raise_spares _ _ _)).trans (makeTransfer_spares _)

theorem goDark_spares (s : State) (n : Nat) : Spares s (s.goDark n) := (role_spares s _).trans (raise_spares _ _ _)

theorem raiseAbort_spares (s : State) (ph : CutPhase) : Spares s (s.raiseAbort ph) :=
  (raise_spares s _ _).trans (inc_spares _ _)

theorem cutBack_spares (s : State) : Spares s s.cutBack := by
  refine Spares.trans ?_ (finish_spares _)
  refine Spares.trans ?_ (raiseAbort_spares _ _)
  refine Spares.trans ?_ (dropTarget_spares _)
  refine Spares.trans (Spares.trans ?_ (clearAllMarks_spares _ .released)) (role_spares _ _)
  exact spares_of_ports rfl

theorem secondDark_spares (s : State) : Spares s s.secondDark := by
  have kmarks : Spares s s.unmarkAll := .foldl (fun v h => spares_of_ports (unmark_ports v h)) _ s
  have kchains : ∀ v : State, Spares v v.discardAll := fun v =>
    (Spares.foldl discardChain_spares _ v).trans (park_spares _ _)
  refine Spares.trans ?_ (preemptTest_spares _)
  refine Spares.trans ?_ (raiseAbort_spares _ _)
  refine Spares.trans ?_ (goDark_spares _ _)
  refine Spares.trans ?_ (dropTarget_spares _)
  exact (kmarks.trans (kchains _)).trans (role_spares _ _)

theorem abortQuiesce_spares (s : State) : Spares s s.abortQuiesce :=
  (((role_spares s _).trans (raiseAbort_spares _ _)).trans (retarget_spares _)).trans (preemptTest_spares _)

theorem activeChanged_spares (s : State) (n : HealthState) : Spares s (s.activeChanged n) := by
  unfold State.activeChanged
  refine .ite ?_ (.ite (role_spares s _) (.refl s))
  have kloss : Spares s (if s.usable s.role.active.other then s.cutBack else s.secondDark) :=
    .ite (cutBack_spares s) (secondDark_spares s)
  split
  · exact .ite (unplanned_spares s _) (goDark_spares s 1)
  · exact (role_spares s _).trans (makeTransfer_spares _)
  · exact kloss
  · exact kloss

theorem otherChanged_spares (s : State) (f : Fw) (n : HealthState) : Spares s (s.otherChanged f n) := by
  have klate : Spares s (s.endLate f n) := .ite (role_spares s _) (.refl s)
  unfold State.otherChanged
  refine .ite (unplanned_spares s _) (klate.trans ?_)
  dsimp only
  split
  · exact retarget_spares _
  · exact .ite (abortQuiesce_spares _) (retarget_spares _)
  · exact .refl _
  · exact .refl _

theorem handChange_spares (s : State) (f : Fw) (n : HealthState) (a b : RoleName) : Spares s (s.handChange f n a b) := by
  have kchange : Spares s (s.healthChanged f n) :=
    Spares.trans (.ite (activeChanged_spares s n) (otherChanged_spares s f n)) (role_spares _ _)
  exact (kchange.trans (finish_spares _)).trans (sendRoleChanges_spares _ _ _ _)

/-- R129: a loss of link reported to the Health Monitor leaves the ports that are DOWN. -/
theorem linkLoss_spares (s : State) (f : Fw) : Spares s (s.linkLoss f) := by
  have k : Spares s ((s.setFw f ((s.fw f).loseLink (s.param .beatPeriod))).raiseFwDown f .link) :=
    (spares_of_ports (t := s.setFw f _) rfl).trans (raise_spares _ _ _)
  exact .ite k (k.trans (handChange_spares _ _ _ _ _))

end Sys2Proof.FramePath

/-! The loss of the mirror target (R112, R117): the RETIRING entries are freed, and each LIVE entry forgets what the target held. -/

namespace Sys2Proof.FramePath

open Sys2Proof Sys2Proof.Machine Sys2Proof.Laws Sys2Proof.SessionTable Sys2Proof.Cutover

variable {s t u : State}

/-! ## Entries freed together -/

theorem freeAll_cons (s : State) (h : Nat) (hs : List Nat) : s.freeAll (h :: hs) = (s.freeEntry h).freeAll hs := rfl

/-- R8: every entry of the list is freed. -/
theorem freeAll_phase_of_mem {hs : List Nat} {g : Nat} (hok : s.tableOk) (hg : g ∈ hs) : (s.freeAll hs).phase g = .free := by
  induction hs generalizing s with
  | nil => cases hg
  | cons h hs ih =>
    have hok' : (s.freeEntry h).tableOk := (freeEntry_still s h).table hok
    rw [freeAll_cons]
    rcases List.mem_cons.mp hg with rfl | hg
    · have hfree : (s.freeEntry g).phase g = .free := by
        cases he : s.entry? g with
        | none => rw [freeEntry_of_none he, phase_of_none he]
        | some e => exact phase_of_none (freeEntry_table hok he).1
      rcases (freeAll_thins _ hs hok').2 g with hp | hp
      · rw [hp, hfree]
      · exact hp
    · exact ih hok' hg

/-- R8: a LIVE entry that waits behind freed ones loses waits and nothing else. -/
theorem releaseWaiters_live {g : Nat} {e : Entry} {d : Declared} {m : MirrorPart} {l : LivePart} (bs : List Nat)
    (he : s.entry? g = some e) (hb : e.body = .live d m l) :
    ∃ n, (s.releaseWaiters bs).entry? g = some (e.withLive d m { l with waits := n }) := by
  unfold State.releaseWaiters
  induction bs generalizing s e l with
  | nil => exact ⟨l.waits, by rw [List.foldl_nil, he]; exact congrArg some (eq_withLive hb)⟩
  | cons b bs ih =>
    have hstep : ∃ n, (s.modifyEntry b (·.mapLive (fun l => { l with waits := l.waits - 1 }))).entry? g =
        some (e.withLive d m { l with waits := n }) := by
      rw [entry?_modifyEntry]
      split
      · subst_vars
        exact ⟨l.waits - 1, by simp [he, Entry.mapLive, hb, Entry.withLive]⟩
      · exact ⟨l.waits, he.trans (congrArg some (eq_withLive hb))⟩
    obtain ⟨n, hn⟩ := hstep
    obtain ⟨k, hk⟩ := ih hn rfl
    exact ⟨k, hk⟩

theorem freeEntry_live {h g : Nat} {e : Entry} {d : Declared} {m : MirrorPart} {l : LivePart} (hok : s.tableOk)
    (hne : g ≠ h) (he : s.entry? g = some e) (hb : e.body = .live d m l) :
    ∃ n, (s.freeEntry h).entry? g = some (e.withLive d m { l with waits := n }) := by
  cases hx : s.entry? h with
  | none => exact ⟨l.waits, by rw [freeEntry_of_none hx, he]; exact congrArg some (eq_withLive hb)⟩
  | some x =>
    obtain ⟨n, hn⟩ := releaseWaiters_live x.blocks he hb
    refine ⟨n, ((freeEntry_table hok hx).2.1 g hne).trans ?_⟩
    unfold unblocked
    split
    · exact hn
    · rw [State.leaveBlocks, entry?_mapAllBlocks, hn]
      rfl

theorem freeAll_live {hs : List Nat} {g : Nat} {e : Entry} {d : Declared} {m : MirrorPart} {l : LivePart} (hok : s.tableOk)
    (hg : g ∉ hs) (he : s.entry? g = some e) (hb : e.body = .live d m l) :
    ∃ n, (s.freeAll hs).entry? g = some (e.withLive d m { l with waits := n }) := by
  induction hs generalizing s e l with
  | nil => exact ⟨l.waits, he.trans (congrArg some (eq_withLive hb))⟩
  | cons h hs ih =>
    obtain ⟨hgh, hg⟩ := List.ne_and_not_mem_of_not_mem_cons hg
    obtain ⟨n, hn⟩ := freeEntry_live hok hgh he hb
    obtain ⟨k, hk⟩ := ih ((freeEntry_still s h).table hok) hg hn rfl
    exact ⟨k, hk⟩

/-- R155: freeing moves the phase from TRANSFER alone. -/
theorem freeAll_role_phase (hp : s.role.phase ≠ .transfer) (hs : List Nat) : (s.freeAll hs).role.phase = s.role.phase := by
  induction hs generalizing s with
  | nil => rfl
  | cons h hs ih =>
    have hstep : (s.freeEntry h).role.phase = s.role.phase := by
      rw [freeEntry_role]
      split
      · exact (unmarkedRole_cases s.role).resolve_right (fun k => hp k.1)
      · rfl
    rw [freeAll_cons, ih (by rwa [hstep]), hstep]

/-! ## The Mirror Engine that holds nothing -/

/-- No entry stands in a lane, and no walk waits for one. -/
def Idles (m : Mirror) : Prop := m.urgent = [] ∧ m.normal = [] ∧ m.walkPending = 0

theorem settleWalk_walkPending (s : State) (h : Nat) : (s.settleWalk h).mirror.walkPending ≤ s.mirror.walkPending := by
  unfold State.settleWalk
  split
  · split
    · rw [modifyEntry_mirror]
      exact Nat.sub_le _ _
    · exact Nat.le_refl _
  · exact Nat.le_refl _

theorem freeEntry_walkPending (s : State) (h : Nat) : (s.freeEntry h).mirror.walkPending ≤ s.mirror.walkPending := by
  cases he : s.entry? h with
  | none => rw [freeEntry_of_none he]
  | some e =>
    have hq : ((unblocked s h e).unqueue h).mirror.walkPending = s.mirror.walkPending := by
      rw [State.unqueue, modifyEntry_mirror, ← unblocked_mirror s h e]
      rfl
    rw [freeEntry_of_entry he, removeEntry_mirror, cleared, unmark_mirror, discardChain_mirror, ← hq]
    exact settleWalk_walkPending _ h

theorem freeEntry_mirror_of_idles (hi : Idles s.mirror) (h : Nat) : (s.freeEntry h).mirror = s.mirror := by
  obtain ⟨hu, hn, hw⟩ := hi
  cases he : s.entry? h with
  | none => rw [freeEntry_of_none he]
  | some e =>
    obtain ⟨hu', hn'⟩ := freeEntry_queues he
    have hw' : (s.freeEntry h).mirror.walkPending = s.mirror.walkPending := by
      have := freeEntry_walkPending s h
      omega
    have hm : (s.freeEntry h).mirror = { s.mirror with
        urgent := (s.freeEntry h).mirror.urgent, normal := (s.freeEntry h).mirror.normal
        walkPending := (s.freeEntry h).mirror.walkPending } := congrArg State.mirror (freeEntry_works s h)
    have hu'' : (s.freeEntry h).mirror.urgent = s.mirror.urgent := by rw [hu', hu]; rfl
    have hn'' : (s.freeEntry h).mirror.normal = s.mirror.normal := by rw [hn', hn]; rfl
    rw [hm, hw', hu'', hn'']

theorem freeAll_mirror_of_idles (hi : Idles s.mirror) (hs : List Nat) : (s.freeAll hs).mirror = s.mirror := by
  induction hs generalizing s with
  | nil => rfl
  | cons h hs ih =>
    have hstep := freeEntry_mirror_of_idles hi h
    rw [freeAll_cons, ih (by rwa [hstep]), hstep]

/-! ## The loss of the target -/

/-- R117: the state just before the RETIRING entries are freed. -/
def untargeted (s : State) : State := abandoned s none .idle 16384 false

theorem targetLoss_eq (s : State) : s.targetLoss = (untargeted s).freeAll ((untargeted s).handlesIn .retiring) := rfl

theorem untargeted_tableOk (hok : s.tableOk) : (untargeted s).tableOk := (mapEntries_held s phase_forget).table hok

/-- R117: the Mirror Engine is IDLE, with no target, and holds nothing. -/
theorem targetLoss_empties (s : State) : s.targetLoss.mirror =
    { target := none, state := .idle, urgent := [], normal := [], slots := [], nextSerial := s.mirror.nextSerial,
      timeouts := 0, cursor := 16384, walkPending := 0, walkQueued := 0, beginPending := false,
      restartHold := .stopped } :=
  freeAll_mirror_of_idles (s := untargeted s) ⟨rfl, rfl, rfl⟩ _

theorem targetLoss_role_phase (hp : s.role.phase ≠ .transfer) : s.targetLoss.role.phase = s.role.phase :=
  freeAll_role_phase (s := untargeted s) hp _

/-- R117: no entry is RETIRING any more. -/
theorem targetLoss_noRetiring (hok : s.tableOk) (h : Nat) : s.targetLoss.phase h ≠ .retiring := by
  have hok' := untargeted_tableOk hok
  rw [targetLoss_eq]
  by_cases hp : (untargeted s).phase h = .retiring
  · rw [freeAll_phase_of_mem hok' ((mem_handlesIn (by decide)).mpr hp)]
    decide
  · rcases (freeAll_thins _ ((untargeted s).handlesIn .retiring) hok').2 h with hq | hq <;> rw [hq]
    · exact hp
    · decide

/-- R117: a LIVE entry is ABSENT at the target, with nothing queued or inflight, and may have lost waits. -/
theorem targetLoss_live {h : Nat} {e : Entry} {d : Declared} {m : MirrorPart} {l : LivePart} (hok : s.tableOk)
    (he : s.entry? h = some e) (hb : e.body = .live d m l) :
    ∃ n, s.targetLoss.entry? h = some (e.withLive d m.forget { l with unprotected := false, waits := n }) := by
  have hforget : (untargeted s).entry? h = some (e.withLive d m.forget { l with unprotected := false }) := by
    refine (entry?_mapEntries s Entry.forget h).trans ?_
    rw [he, Option.map_some, Entry.forget, hb]
    rfl
  have hlive : h ∉ (untargeted s).handlesIn .retiring := by
    rw [mem_handlesIn (by decide), phase_of_entry hforget]
    simp [Entry.withLive, Entry.phase]
  exact freeAll_live (untargeted_tableOk hok) hlive hforget rfl

theorem targetLoss_frees (s : State) : Frees s s.targetLoss :=
  (show Frees s (untargeted s) from ⟨fun _ _ _ _ => rfl, fun _ _ _ => rfl⟩).trans (freeAll_frees _ _)

end Sys2Proof.FramePath

/-! A port that loses its link (R69, R70, R129): its queue, the health of its firewall, and what a firewall that is not active leaves
behind when it goes DOWN, in phase NONE (R117, R140) and in QUIESCE (R152). -/

namespace Sys2Proof.FramePath

open Sys2Proof Sys2Proof.Machine Sys2Proof.Laws Sys2Proof.SessionTable Sys2Proof.Cutover

variable {s t u : State} {p : Port} {f : Fw}

/-! ## The port -/

/-- R69, R70: the port DOWN, its queue emptied and PORT_LINK raised. -/
def unlinked (s : State) (p : Port) : State := (s.dropLink p).raisePortLink p .down

theorem linkFall_of_fw (hup : (s.port p).link = .up) (hf : p.fw? = some f) : s.linkFall p = (unlinked s p).linkLoss f := by
  simp [State.linkFall, hup, hf, unlinked]

theorem linkFall_of_side (hup : (s.port p).link = .up) (hf : p.fw? = none) : s.linkFall p = unlinked s p := by
  simp [State.linkFall, hup, hf, unlinked]

theorem dropLink_port (s : State) (p q : Port) :
    (s.dropLink p).port q = if q = p then { link := .down, tx := [] } else s.port q := port_setPort _ p q _

theorem unlinked_sends (s : State) (p : Port) : Sends s (unlinked s p) :=
  Sends.trans (t := s.dropLink p) rfl (raise_sends _ _ _)

theorem unlinked_port (s : State) (p : Port) : (unlinked s p).port p = { link := .down, tx := [] } := by
  have hdown : (s.dropLink p).port p = { link := .down, tx := [] } := by rw [dropLink_port, if_pos rfl]
  exact (raise_spares (s.dropLink p) _ _ p (by rw [hdown])).trans hdown

theorem unlinked_link (s : State) {p q : Port} (hq : q ≠ p) : ((unlinked s p).port q).link = (s.port q).link := by
  rw [unlinked, raisePortLink_link, dropLink_port, if_neg hq]

theorem unlinked_event (s : State) (p : Port) (ev : EventId) :
    (unlinked s p).event ev = if ev = .portLink then (s.event .portLink).next else s.event ev :=
  raisePortLink_event (s.dropLink p) p .down ev

theorem unlinked_flag (s : State) (p : Port) : ((unlinked s p).event .portLink).flag = true := by
  rw [unlinked_event, if_pos rfl, next_eq]

/-- R70: the frames dropped with the link are counted in TX_DROP, with any NOTICE that finds no room. -/
theorem unlinked_txDrop (s : State) (p : Port) :
    min (s.count .txDrop + (s.port p).tx.length) Config.counterMax ≤ (unlinked s p).count .txDrop ∧
      (unlinked s p).count .txDrop ≤ Config.counterMax := by
  have hdrop : (s.dropLink p).count .txDrop = min (s.count .txDrop + (s.port p).tx.length) Config.counterMax :=
    (count_add s .txDrop .txDrop _).trans (if_pos rfl)
  rw [← hdrop]
  exact (raise_held (s.dropLink p) _ _).counts .txDrop (by omega)

theorem unlinked_count (s : State) (p : Port) {c : Counter} (hc : c ≠ .txDrop) : (unlinked s p).count c = s.count c :=
  (raise_count (s.dropLink p) _ _ hc).trans ((count_add s c .txDrop _).trans (if_neg hc))

/-! ## The firewall -/

/-- R129: the health record after the loss of a link. -/
def downed (s : State) (f : Fw) : State := s.setFw f ((s.fw f).loseLink (s.param .beatPeriod))

/-- R129, R131: the firewall DOWN with reason LINK and FW_DOWN raised. -/
def reported (s : State) (f : Fw) : State := (downed s f).raiseFwDown f .link

theorem reported_sends (s : State) (f : Fw) : Sends (downed s f) (reported s f) := raise_sends _ _ _

theorem reported_unusable (s : State) (f : Fw) : (reported s f).usable f = false := by
  simp [State.usable, State.fw, (reported_sends s f).health, downed, State.setFw, HealthRecord.loseLink, HealthState.usable]

theorem linkLoss_of_down (h : (s.fw f).state.isDown = true) : s.linkLoss f = reported s f := if_pos h

theorem linkLoss_of_not_down (h : (s.fw f).state.isDown = false) :
    s.linkLoss f = (reported s f).handChange f (.down .link) (s.assigned .a) (s.assigned .b) := by
  simp [State.linkLoss, h, reported, downed]

/-- R132: what follows the report leaves the health records, the links and the flags. -/
theorem linkLoss_kept (s : State) (f : Fw) : Kept (reported s f) (s.linkLoss f) := by
  cases h : (s.fw f).state.isDown with
  | true => rw [linkLoss_of_down h]; exact .refl _
  | false => rw [linkLoss_of_not_down h]; exact (handChange_moved _ _ _ _ _).toKept

theorem linkLoss_fromDowned (s : State) (f : Fw) : Kept (downed s f) (s.linkLoss f) :=
  (raise_held _ _ _).toKept.trans (linkLoss_kept s f)

theorem linkLoss_fwDown (s : State) (f : Fw) : ((s.linkLoss f).event .fwDown).flag = true := by
  refine (linkLoss_kept s f).flags .fwDown ?_
  have hev : (reported s f).event .fwDown = (s.event .fwDown).next := (raise_event _ _ _ _).trans (if_pos rfl)
  rw [hev, next_eq]

theorem linkLoss_health (s : State) (f g : Fw) : (s.linkLoss f).fw g = (downed s f).fw g := by
  simp only [State.fw, (linkLoss_fromDowned s f).health]

/-! ## The tests that end an event, with no standby -/

theorem standby_congr (hr : t.role.active = s.role.active) (hh : t.health = s.health) : t.standby = s.standby := by
  unfold State.standby State.usable State.fw
  rw [hr, hh]

/-- R89, R148: with no standby there is nothing to pre-empt with. -/
theorem preemptTest_of_no_standby (h : s.standby = none) : s.preemptTest = s := by
  simp [State.preemptTest, State.mayPreempt, State.ready, h]

/-- R116: a walk ended, before its preemption test. -/
def walkEnded (s : State) : State :=
  { s with mirror := { s.mirror with state := .streaming } }.raise .walkDone
    (be1 (fwCode s.mirror.target) ++ be2 s.mirror.walkQueued)

theorem walkEnded_sends (s : State) :
    Sends { s with mirror := { s.mirror with state := .streaming } } (walkEnded s) := raise_sends _ _ _

/-- R116, R160: outside SETTLE and with no standby, the tests that end an event do no more than end a walk. -/
theorem finish_of_no_standby (hp : s.role.phase ≠ .settle) (hs : s.standby = none) :
    s.finish = s ∨ s.finish = walkEnded s := by
  have hset : s.settleDone = false := settleDone_of_phase hp
  cases hw : s.walkDone with
  | false => exact .inl (finish_of_undone hset hw)
  | true =>
    have hstand : (walkEnded s).standby = none :=
      (standby_congr (by rw [(walkEnded_sends s).role]) (walkEnded_sends s).health).trans hs
    have hend : s.endWalk = walkEnded s := preemptTest_of_no_standby hstand
    exact .inr (by simp [State.finish, hset, hw, hend])

/-! ## A firewall that is not active goes DOWN -/

theorem endLate_eq (s : State) (f : Fw) (n : HealthState) : s.endLate f n =
    { s with role := { s.role with lateWindow := (s.endLate f n).role.lateWindow } } := by
  unfold State.endLate
  split <;> rfl

theorem endLate_active (s : State) (f : Fw) (n : HealthState) : (s.endLate f n).role.active = s.role.active := by
  rw [endLate_eq]

theorem endLate_phase (s : State) (f : Fw) (n : HealthState) : (s.endLate f n).role.phase = s.role.phase := by
  rw [endLate_eq]

theorem endLate_mirror (s : State) (f : Fw) (n : HealthState) : (s.endLate f n).mirror = s.mirror := by
  rw [endLate_eq]

theorem endLate_standby (s : State) (f : Fw) (n : HealthState) : (s.endLate f n).standby = s.standby := by
  rw [endLate_eq]
  rfl

theorem otherChanged_of_down (r : DownReason) (hp : s.role.phase = .none) :
    s.otherChanged f (.down r) = (s.endLate f (.down r)).retarget := by
  have hrec : s.recovers (.down r) = false := rfl
  have hp' : (s.endLate f (.down r)).role.phase = .none := (endLate_phase s f _).trans hp
  simp [State.otherChanged, hrec, hp']

theorem otherChanged_of_aborted (r : DownReason) (hp : s.role.phase = .quiesce) (hs : s.standby = none) :
    s.otherChanged f (.down r) = (s.endLate f (.down r)).abortQuiesce := by
  have hrec : s.recovers (.down r) = false := rfl
  have hp' : (s.endLate f (.down r)).role.phase = .quiesce := (endLate_phase s f _).trans hp
  simp [State.otherChanged, hrec, hp', endLate_standby, hs]

theorem healthChanged_of_other (n : HealthState) (hf : f ≠ s.role.active) :
    s.healthChanged f n = (s.otherChanged f n).evalFitness := by simp [State.healthChanged, hf]

/-- R117, R140: in phase NONE the mirror loses its target, and the event ends there. -/
theorem targetLost (r : DownReason) (hf : f ≠ s.role.active) (hp : s.role.phase = .none) (hs : s.standby = none)
    (ht : s.mirror.target ≠ none) :
    (s.healthChanged f (.down r)).finish = (s.endLate f (.down r)).targetLoss.evalFitness := by
  let v := s.endLate f (.down r)
  have hretarget : v.retarget = v.targetLoss := by
    have htv : v.mirror.target ≠ none := by rw [endLate_mirror]; exact ht
    have hsv : v.standby = none := (endLate_standby s f _).trans hs
    simp [State.retarget, hsv, htv]
  have hphase : v.targetLoss.role.phase = .none := by
    have hpv : v.role.phase = .none := (endLate_phase s f _).trans hp
    rw [targetLoss_role_phase (by rw [hpv]; decide), hpv]
  rw [healthChanged_of_other _ hf, otherChanged_of_down r hp, hretarget]
  refine finish_of_quiet ⟨?_, ?_⟩
  · show v.targetLoss.mirror.state ≠ _
    rw [targetLoss_empties]
    nofun
  · show v.targetLoss.role.phase ≠ _
    rw [hphase]
    decide

/-! ## A QUIESCE aborted -/

/-- R152: the cutover aborted, before the mirror target is taken anew. -/
def aborted (s : State) : State :=
  { s with role := { s.role with quiesce := .stopped, phase := .none } }.raiseAbort .quiesce

theorem aborted_eq (s : State) : aborted s = { s with
    role := { s.role with quiesce := .stopped, phase := .none }
    ports := (aborted s).ports, counters := (aborted s).counters, events := (aborted s).events } :=
  Sends.trans (raise_sends _ .cutoverAbort _) (show Sends _ (State.inc _ .cutoverAborts) from rfl)

theorem aborted_count (s : State) :
    (aborted s).count .cutoverAborts = min (s.count .cutoverAborts + 1) Config.counterMax := by
  rw [aborted, State.raiseAbort, count_inc, if_pos rfl, raise_count _ _ _ (by decide)]
  rfl

theorem aborted_flag (s : State) : ((aborted s).event .cutoverAbort).flag = true := by
  rw [aborted, State.raiseAbort, event_inc, raise_event, if_pos rfl, next_eq]

theorem aborted_standby (s : State) : (aborted s).standby = s.standby :=
  standby_congr (by rw [aborted_eq]) (by rw [aborted_eq])

/-- R88, R140: with no standby the mirror has no target, whatever it had. -/
theorem retarget_of_no_standby (hs : s.standby = none) : s.retarget.mirror.target = none ∧ Frees s s.retarget ∧
    (s.role.phase ≠ .transfer → s.retarget.role.phase = s.role.phase) := by
  rcases retarget_cases s with ⟨h, ht⟩ | ⟨f, hf, -⟩ | ⟨-, h⟩
  · rw [h]
    exact ⟨ht.trans hs, .refl s, fun _ => rfl⟩
  · rw [hs] at hf
    cases hf
  · rw [h]
    exact ⟨(targetLoss_mirror s).1, targetLoss_frees s, targetLoss_role_phase⟩

theorem evalFitness_standby (s : State) : s.evalFitness.standby = s.standby := standby_congr rfl rfl

theorem retarget_standby (s : State) : s.retarget.standby = s.standby :=
  standby_congr (retarget_still s).active (retarget_still s).health

theorem abortQuiesce_of_no_standby (hs : s.standby = none) : s.abortQuiesce = (aborted s).retarget :=
  preemptTest_of_no_standby ((retarget_standby _).trans ((aborted_standby s).trans hs))

/-- R152: what an aborted QUIESCE leaves, once the mirror target has been taken anew. -/
structure EndsAborted (s t : State) : Prop where
  phase : t.role.phase = .none
  quiesce : t.role.quiesce = .stopped
  active : t.role.active = s.role.active
  epoch : t.role.epoch = s.role.epoch
  target : t.mirror.target = none
  flag : (t.event .cutoverAbort).flag = true
  count : t.count .cutoverAborts = min (s.count .cutoverAborts + 1) Config.counterMax

theorem abortQuiesce_ends (hs : s.standby = none) : EndsAborted s s.abortQuiesce := by
  obtain ⟨htarget, hfrees, hphase⟩ := retarget_of_no_standby ((aborted_standby s).trans hs)
  have hrole := (retarget_onward (aborted s)).role
  have hstill := retarget_still (aborted s)
  rw [abortQuiesce_of_no_standby hs]
  refine ⟨?_, ?_, ?_, ?_, htarget, hstill.flags _ (aborted_flag s), ?_⟩
  · rw [hphase (by rw [aborted_eq]; nofun), aborted_eq]
  · rw [hrole, aborted_eq]
  · rw [hstill.active, aborted_eq]
  · rw [hstill.epoch, aborted_eq]
  · rw [hfrees.counts _ (by decide) (by decide) (by decide), aborted_count]

theorem EndsAborted.evalFitness (h : EndsAborted s t) : EndsAborted s t.evalFitness :=
  ⟨h.phase, h.quiesce, h.active, h.epoch, h.target, h.flag, h.count⟩

/-- The tests that end the event, and the ROLE frames after it, leave what the abort left. -/
theorem EndsAborted.finish (h : EndsAborted s t) (hs : t.standby = none) : EndsAborted s t.finish := by
  rcases finish_of_no_standby (by rw [h.phase]; decide) hs with e | e <;> rw [e]
  · exact h
  · have k := walkEnded_sends t
    refine ⟨?_, ?_, ?_, ?_, ?_, ?_, ?_⟩
    · rw [k.role]; exact h.phase
    · rw [k.role]; exact h.quiesce
    · rw [k.role]; exact h.active
    · rw [k.role]; exact h.epoch
    · rw [k.mirror]; exact h.target
    · exact (raise_held _ _ _).flags _ h.flag
    · rw [walkEnded, raise_count _ _ _ (by decide)]
      exact h.count

theorem EndsAborted.sendRoleChanges (h : EndsAborted s t) (ph : CutPhase) (a b : RoleName) :
    EndsAborted s (t.sendRoleChanges ph a b) := by
  have k := sendRoleChanges_sends t ph a b
  refine ⟨?_, ?_, ?_, ?_, ?_, (sendRoleChanges_held t ph a b).flags _ h.flag, ?_⟩
  · rw [k.role]; exact h.phase
  · rw [k.role]; exact h.quiesce
  · rw [k.role]; exact h.active
  · rw [k.role]; exact h.epoch
  · rw [k.mirror]; exact h.target
  · rw [sendRoleChanges_count _ _ _ _ (by decide)]
    exact h.count

/-- The late window ended is nothing that an abort is judged by. -/
theorem EndsAborted.of_endLate {n : HealthState} (h : EndsAborted (s.endLate f n) t) : EndsAborted s t := by
  have hepoch : (s.endLate f n).role.epoch = s.role.epoch := by rw [endLate_eq]
  have hcount : (s.endLate f n).count .cutoverAborts = s.count .cutoverAborts := by rw [endLate_eq]; rfl
  exact ⟨h.phase, h.quiesce, h.active.trans (endLate_active s f n), h.epoch.trans hepoch, h.target, h.flag,
    by rw [h.count, hcount]⟩

/-- R152: the firewall that is not active goes DOWN in QUIESCE. -/
theorem quiesceAborted (r : DownReason) (hf : f ≠ s.role.active) (hp : s.role.phase = .quiesce) (hs : s.standby = none) :
    EndsAborted s (s.healthChanged f (.down r)).finish := by
  let v := s.endLate f (.down r)
  have hsv : v.standby = none := (endLate_standby s f _).trans hs
  have hend := abortQuiesce_ends hsv
  have hstand : v.abortQuiesce.evalFitness.standby = none :=
    (evalFitness_standby _).trans ((standby_congr (abortQuiesce_still v).active (abortQuiesce_still v).health).trans hsv)
  rw [healthChanged_of_other _ hf, otherChanged_of_aborted r hp hs]
  exact (hend.evalFitness.finish hstand).of_endLate

end Sys2Proof.FramePath

/-! The loss of a link as one event (R69, R70, R117, R129, R131, R140, R152, R210). -/

namespace Sys2Proof.FramePath

open Sys2Proof Sys2Proof.Machine Sys2Proof.Laws Sys2Proof.SessionTable Sys2Proof.Cutover

variable {s t u : State} {p : Port} {f : Fw}

theorem reported_standby (hf : f = s.role.active.other) : (reported s f).standby = none := by
  refine standby_of_unusable ?_
  have hrole : (reported s f).role = s.role := (reported_sends s f).role
  rw [hrole, ← hf]
  exact reported_unusable s f

theorem ne_active_of_other (hf : f = s.role.active.other) : f ≠ (reported s f).role.active := by
  have hrole : (reported s f).role = s.role := (reported_sends s f).role
  rw [hrole, hf]
  exact fw_other_ne _

/-- R117, R129, R140: in phase NONE the event comes to a loss of the mirror target, from a state with the table, the mirror and the
active role that the loss of link found. -/
theorem linkLoss_targetLost (hf : f = s.role.active.other) (hup : (s.fw f).state.isDown = false)
    (hp : s.role.phase = .none) (ht : s.mirror.target = some f) :
    ∃ v : State, v.table = s.table ∧ v.mirror = s.mirror ∧ v.role.active = s.role.active ∧ v.role.phase = .none ∧
      Sends v.targetLoss.evalFitness (s.linkLoss f) := by
  have k := reported_sends s f
  have hrole : (reported s f).role = s.role := k.role
  have hmirror : (reported s f).mirror = s.mirror := k.mirror
  have htable : (reported s f).table = s.table := k.table
  have hlost := targetLost .link (ne_active_of_other hf) (by rw [hrole]; exact hp) (reported_standby hf)
    (by rw [hmirror, ht]; nofun)
  refine ⟨(reported s f).endLate f (.down .link), ?_, ?_, ?_, ?_, ?_⟩
  · rw [endLate_eq]; exact htable
  · rw [endLate_eq]; exact hmirror
  · rw [endLate_active, hrole]
  · rw [endLate_phase, hrole, hp]
  · rw [linkLoss_of_not_down hup, State.handChange, hlost]
    exact sendRoleChanges_sends _ _ _ _

/-- R129, R152: in QUIESCE the event comes to an abort of the cutover. -/
theorem linkLoss_quiesceAborted (hf : f = s.role.active.other) (hup : (s.fw f).state.isDown = false)
    (hp : s.role.phase = .quiesce) : EndsAborted s (s.linkLoss f) := by
  have hrole : (reported s f).role = s.role := (reported_sends s f).role
  have hcount : (reported s f).count .cutoverAborts = s.count .cutoverAborts := raise_count (downed s f) _ _ (by decide)
  have hend := quiesceAborted .link (ne_active_of_other hf) (by rw [hrole]; exact hp) (reported_standby hf)
  have h : EndsAborted (reported s f) (s.linkLoss f) := by
    rw [linkLoss_of_not_down hup]
    exact hend.sendRoleChanges _ _ _
  exact ⟨h.phase, h.quiesce, by rw [h.active, hrole], by rw [h.epoch, hrole], h.target, h.flag, by rw [h.count, hcount]⟩

/-- R117: what the loss of the target shows of an entry that was LIVE. -/
theorem targetLoss_body {h : Nat} {e : Entry} {d : Declared} {m : MirrorPart} {l : LivePart} (hok : s.tableOk)
    (he : s.entry? h = some e) (hb : e.body = .live d m l) :
    ∃ l', (s.targetLoss.entry? h).map (·.body) = some (.live d m.forget l') ∧ l'.unprotected = false ∧
      l'.marked = l.marked ∧ l'.chain = l.chain := by
  obtain ⟨n, hn⟩ := targetLoss_live hok he hb
  exact ⟨{ l with unprotected := false, waits := n }, by rw [hn]; rfl, rfl, rfl, rfl⟩

theorem unlinked_fw (s : State) (p : Port) (f : Fw) : (unlinked s p).fw f = s.fw f := by
  simp only [State.fw, (unlinked_sends s p).health]

/-- R129: the two health records after the loss of a link of one firewall. -/
theorem unlinked_linkLoss_fw (s : State) (p : Port) (f : Fw) : ((unlinked s p).linkLoss f).fw f.other = s.fw f.other ∧
    ((unlinked s p).linkLoss f).fw f = (s.fw f).loseLink (s.param .beatPeriod) := by
  have hbeat : (unlinked s p).param .beatPeriod = s.param .beatPeriod := by
    simp only [State.param, (unlinked_sends s p).params]
  rw [linkLoss_health, linkLoss_health, downed, fw_setFw, fw_setFw, if_neg (fw_other_ne f), if_pos rfl, unlinked_fw,
    unlinked_fw, hbeat]
  exact ⟨rfl, rfl⟩

/-- Settles O38: the port is cleared, then its firewall's record, then what hangs on a firewall that is not active: the mirror
target in phase NONE, the cutover in QUIESCE. -/
theorem linkLossMakesItsFirewallDown : Obligations.LinkLossMakesItsFirewallDown := by
  refine fun p s => ⟨fun hdown => congrArg Host.Outcome.next (if_pos hdown), fun hup => ?_⟩
  have kv := unlinked_sends s p
  obtain ⟨hdrop, hcap⟩ := unlinked_txDrop s p
  cases hf : p.fw? with
  | none =>
    exact ⟨_, congrArg Host.Outcome.next (linkFall_of_side hup hf), unlinked_port s p, fun q hq => unlinked_link s hq,
      unlinked_flag s p, hdrop, nofun,
      fun _ => ⟨kv, by rw [unlinked_event, if_pos rfl], fun ev hev => by rw [unlinked_event, if_neg hev]⟩, nofun, nofun⟩
  | some f =>
    have kt := linkLoss_fromDowned (unlinked s p) f
    have hother : ∀ g, some f = some g → f = g := fun g => Option.some.inj
    refine ⟨(unlinked s p).linkLoss f, congrArg Host.Outcome.next (linkFall_of_fw hup hf), ?_, fun q hq => ?_,
      kt.flags .portLink (unlinked_flag s p), hdrop.trans (kt.counts .txDrop hcap).1, fun g hg => ?_, nofun,
      fun hg hnot hphase hok htarget => ?_, fun hg hnot hphase => ?_⟩
    · exact (linkLoss_spares _ f p (by rw [unlinked_port])).trans (unlinked_port s p)
    · exact (kt.sends q).1.trans (unlinked_link s hq)
    · obtain rfl := hother g hg
      obtain ⟨h1, h2⟩ := unlinked_linkLoss_fw s p f
      exact ⟨h1, h2, linkLoss_fwDown _ f⟩
    · have hactive : f = (unlinked s p).role.active.other := by rw [kv.role]; exact hother _ hg
      have hnot' : ((unlinked s p).fw f).state.isDown = false := by rw [unlinked_fw, hother _ hg]; exact hnot
      obtain ⟨v, vtable, vmirror, vactive, vphase, k⟩ := linkLoss_targetLost hactive hnot'
        (by rw [kv.role]; exact hphase) (by rw [kv.mirror, htarget, hg])
      have hvok : v.tableOk := keepsTable_of_eq (vtable.trans kv.table) hok
      have hentry : ∀ h, ((unlinked s p).linkLoss f).entry? h = v.targetLoss.entry? h := fun h =>
        entry?_of_table (by rw [k.table]; rfl) h
      refine ⟨?_, ?_, ?_, fun h => ?_, fun h e d m l he hb => ?_⟩
      · rw [k.mirror, evalFitness_mirror, targetLoss_empties, vmirror, kv.mirror]
      · rw [k.role]
        exact (targetLoss_role_phase (by rw [vphase]; decide)).trans vphase
      · rw [k.role]
        exact (targetLoss_still v).active.trans (vactive.trans (by rw [kv.role]))
      · rw [phase_congr (hentry h)]
        exact targetLoss_noRetiring hvok h
      · rw [hentry]
        exact targetLoss_body hvok ((entry?_of_table (congrArg Table.entries (vtable.trans kv.table)) h).trans he) hb
    · have hactive : f = (unlinked s p).role.active.other := by rw [kv.role]; exact hother _ hg
      have hnot' : ((unlinked s p).fw f).state.isDown = false := by rw [unlinked_fw, hother _ hg]; exact hnot
      have h := linkLoss_quiesceAborted hactive hnot' (by rw [kv.role]; exact hphase)
      exact ⟨h.phase, h.quiesce, by rw [h.active, kv.role], by rw [h.epoch, kv.role], h.target, h.flag,
        by rw [h.count, unlinked_count s p (by decide)]⟩

end Sys2Proof.FramePath

/-! A REFRESH requested of the Mirror Engine (R94), and the roles and the readiness derived from health and mirror (R89, R134). -/

namespace Sys2Proof.MirrorChannel

open Sys2Proof Sys2Proof.Machine Sys2Proof.Laws Sys2Proof.SessionTable Sys2Proof.FramePath

variable {s t u : State}

/-! ## A need of a LIVE entry (R90, R91) -/

/-- R90, R91: a need of a LIVE entry, which owes a record only where it stands in a lane. -/
theorem raiseNeed_live {h : Nat} {e : Entry} {d : Declared} {m : MirrorPart} {l : LivePart} (k : RecKind)
    (he : s.entry? h = some (e.withLive d m l)) (hq : m.lane = none → m.queued = none) :
    (s.raiseNeed h k).entry? h =
      some (e.withLive d { m with lane := some (needLane s m l), queued := some (k.merge m.queued) } l) := by
  have hset : m.lane = some (needLane s m l) → (s.setQueued h (k.merge m.queued)).entry? h =
      some (e.withLive d { m with lane := some (needLane s m l), queued := some (k.merge m.queued) } l) := fun hl => by
    rw [setQueued_self, he, ← hl]; rfl
  unfold State.raiseNeed
  rw [laneOf_of_live he, queuedOf_of_live he, wantsUrgent_of_live he]
  cases hl : m.lane with
  | none =>
    rw [lanePlace_live he, hq hl]
    simp [needLane, hl, RecKind.merge]
  | some ln =>
    cases ln with
    | urgent => exact hset (by rw [hl]; simp [needLane, hl])
    | normal =>
      by_cases hc : l.marked = true ∨ s.role.phase = .quiesce
      · simp only [hc, decide_true, if_true]
        rw [lanePlace_live he]
        simp [needLane, ← or_assoc, hc]
      · simp only [hc, decide_false, Bool.false_eq_true, if_false]
        exact hset (by simp [needLane, hc, hl])

/-- R90: no kind ranks below a REFRESH. -/
theorem refresh_merge (k : RecKind) : RecKind.merge .refresh (some k) = k := by cases k <;> rfl

/-! ## A REFRESH requested (R94) -/

theorem requestRefresh_of_live {h : Nat} {e : Entry} {d : Declared} {m : MirrorPart} {l : LivePart}
    (he : s.entry? h = some (e.withLive d m l)) : s.requestRefresh h =
      if s.mirror.state = .idle ∨ l.unprotected = true then s
      else if m.inflight.isSome || m.queued.isSome || m.peer == .current then s.raiseNeed h .refresh else s := by
  simp [State.requestRefresh, he, Entry.withLive, Entry.mirror?, Entry.live?]

/-- Settles O20: a request that is not refused raises a REFRESH need, which R90 ranks below everything queued. -/
theorem refreshRequestIsJudgedByTheEntry : Obligations.RefreshRequestIsJudgedByTheEntry := by
  intro s h e d m l he hb
  have he' : s.entry? h = some (e.withLive d m l) := he.trans (congrArg some (eq_withLive hb))
  have hreq := requestRefresh_of_live he'
  have hraised : s.mirror.state ≠ .idle → l.unprotected = false →
      (m.inflight.isSome || m.queued.isSome || m.peer == .current) = true →
      s.requestRefresh h = s.raiseNeed h .refresh := fun hidle hun hc => by simp [hreq, hidle, hun, hc]
  refine ⟨fun hc => by rw [hreq, if_pos hc], fun _ _ hi hq hp => ?_, fun hidle hun hc hq hl => ?_, fun hidle hun hl hq => ?_⟩
  · simp [hreq, hi, hq, hp]
  · have hself := raiseNeed_live .refresh he' (fun _ => hq)
    rw [hraised hidle hun (by simpa [hq, Option.isSome_iff_ne_none] using hc), queuedOf_of_live hself, laneOf_of_live hself]
    exact ⟨by rw [hq]; rfl, by simp [needLane, hl]⟩
  · obtain ⟨k, hk⟩ := Option.ne_none_iff_exists'.mp hq
    have hself := raiseNeed_live .refresh he' (fun hn => absurd hn hl)
    rw [hraised hidle hun (by simp [hk]), queuedOf_of_live hself, hk, refresh_merge]

/-! ## Assigned roles and readiness (R89, R134) -/

theorem usable_iff (x : HealthState) : x.usable = true ↔ x = .up ∨ x = .suspect := by cases x <;> simp [HealthState.usable]

theorem assigned_active {f : Fw} (h : s.role.active = f) : s.assigned f = .active := if_pos h.symm

theorem assigned_of_other {f : Fw} (h : s.role.active ≠ f) :
    s.assigned f = if s.usable f then .standby else .none := if_neg h.symm

/-- R89: a ready standby is UP, so it is the standby of R140. -/
theorem ready_iff (s : State) : s.ready = true ↔
    (s.fw s.role.active.other).state = .up ∧ s.mirror.target = some s.role.active.other ∧ s.mirror.state = .streaming := by
  cases hu : s.usable s.role.active.other with
  | true =>
    simp only [State.ready, standby_of_usable hu, Bool.and_eq_true, beq_iff_eq]
    tauto
  | false =>
    have hup : (s.fw s.role.active.other).state ≠ .up := fun k => by simp [State.usable, k, HealthState.usable] at hu
    simp [State.ready, standby_of_unusable hu, hup]

/-- Settles O40, by the cases of the health states. -/
theorem assignedRoleAndReadinessAreDerived : Obligations.AssignedRoleAndReadinessAreDerived := by
  refine ⟨fun s f => ⟨assigned_active, fun hf hs => ?_, fun hf hs => ?_⟩, ready_iff⟩
  · exact (assigned_of_other hf).trans (if_pos ((usable_iff _).mpr hs))
  · have hu : ¬ (s.usable f = true) := by
      rw [State.usable, usable_iff]
      rcases hs with h | h | ⟨r, h⟩ <;> simp [h]
    rw [assigned_of_other hf, if_neg hu]

end Sys2Proof.MirrorChannel

/-! The timers of the Role Controller and the restart hold (R110, R139): a planned cutover that a preemption test begins (R148 to
R151), and the expiries. -/

namespace Sys2Proof.MirrorChannel

open Sys2Proof Sys2Proof.Machine Sys2Proof.Laws Sys2Proof.SessionTable Sys2Proof.FramePath

variable {s t u : State}

/-! ## A planned cutover that begins (R148 to R151) -/

/-- R150: a planned cutover opened, no frame sent yet. -/
def planned (s : State) (r : CutReason) : State :=
  { s with role := { s.role with
      kind := some .planned, reason := some r, source := some s.role.active, dest := some s.role.active.other, record := .zero
      phase := .quiesce, dwell := .stopped } }

/-- R141, R150: a planned cutover announced, its quiesce timer not yet started. -/
def announced (s : State) (r : CutReason) : State :=
  ((planned s r).raise .cutoverStart (planned s r).startParams).sendDrain

theorem beginPlanned_eq (s : State) (r : CutReason) : s.beginPlanned r = State.prePush { announced s r with
    role := { (announced s r).role with quiesce := .start ((announced s r).param .quiesceTimeout) } } := rfl

theorem announced_sends (s : State) (r : CutReason) : Sends (planned s r) (announced s r) :=
  (raise_sends _ _ _).trans (sendTo_sends _ _ _ _ _ _ _)

theorem prePush_lanes (s : State) : Lanes s s.prePush := .foldl prePushOne_lanes _ s

/-- R150: the roles as a planned cutover begins. -/
def plannedRole (s : State) (r : CutReason) : Role :=
  { s.role with
      kind := some .planned, reason := some r, source := some s.role.active, dest := some s.role.active.other, record := .zero
      phase := .quiesce, dwell := .stopped, quiesce := .start (s.param .quiesceTimeout) }

theorem beginPlanned_role (s : State) (r : CutReason) : (s.beginPlanned r).role = plannedRole s r := by
  have k := announced_sends s r
  rw [beginPlanned_eq, (prePush_lanes _).role]
  simp only [State.param, k.params, k.role]
  rfl

/-- R148: the firewall that is not active is the preferred one, and preemption by it is on. -/
def prefersOther (s : State) : Prop := s.param .preemptPreferred = 1 ∧ s.param .preferred = Fw.code s.role.active.other

theorem preferredStandby_of_ready (h : s.ready = true) : s.preferredStandby = true ↔ prefersOther s := by
  have hu : s.usable s.role.active.other = true := by simp [State.usable, ((ready_iff s).mp h).1, HealthState.usable]
  simp [State.preferredStandby, standby_of_usable hu, fwCode, prefersOther]

theorem not_prefersOther (h : ¬ prefersOther s) : s.preferredStandby = false := by
  by_contra hc
  have hc : s.preferredStandby = true := by simpa using hc
  simp only [State.preferredStandby, Bool.and_eq_true, beq_iff_eq, Option.isSome_iff_exists] at hc
  obtain ⟨⟨h1, f, hf⟩, h2⟩ := hc
  refine h ⟨h1, ?_⟩
  rw [h2, hf, (standby_ne_active hf).1]
  rfl

/-- R148: why a preemption is made. -/
def preemptReason (s : State) : CutReason := if s.preferredStandby then .preferred else .fitness

/-- R148: a preemption test that a ready standby passes. -/
theorem preemptTest_of_ready (hp : s.role.phase = .none) (hh : s.role.holdDown = .stopped) (hr : s.ready = true)
    (hc : s.preferredStandby = true ∨ s.role.dwell = .complete) :
    s.preemptTest = s.beginPlanned (preemptReason s) := by
  have hm : s.mayPreempt = true := by simp [State.mayPreempt, hp, hh, hr, hc, Timer.isRunning]
  exact if_pos hm

/-- R148: a preemption test that fails. -/
theorem preemptTest_of_not (h : s.role.phase ≠ .none ∨ s.role.holdDown ≠ .stopped ∨ s.ready = false ∨
    (s.preferredStandby = false ∧ s.role.dwell ≠ .complete)) : s.preemptTest = s := by
  have hm : s.mayPreempt = false := by
    rcases h with h | h | h | ⟨h1, h2⟩
    · simp [State.mayPreempt, h]
    · cases hh : s.role.holdDown with
      | stopped => exact absurd hh h
      | running n => simp [State.mayPreempt, hh, Timer.isRunning]
    · simp [State.mayPreempt, h]
    · simp [State.mayPreempt, h1, h2]
  simp [State.preemptTest, hm]

/-! ## The expiries (R110, R139, R147, R148, R157) -/

/-- R139: the hold-down stopped, its preemption test not yet made. -/
def holdStopped (s : State) : State := { s with role := { s.role with holdDown := .stopped } }

/-- R147: the fitness dwell complete, its preemption test not yet made. -/
def dwellComplete (s : State) : State := { s with role := { s.role with dwell := .complete } }

theorem isRunning_iff (x : Timer) : x.isRunning = true ↔ x ≠ .stopped := by cases x <;> simp [Timer.isRunning]

theorem asEvent_role (s : State) (body : State → State) : (s.asEvent body).role = (body s).role :=
  (sendRoleChanges_sends _ _ _ _).role

theorem holdDownEnds_of_running (h : s.role.holdDown ≠ .stopped) :
    s.holdDownEnds = s.asEvent (fun v => (holdStopped v).preemptTest) := if_pos ((isRunning_iff _).mpr h)

theorem dwellEnds_of_running {n : Nat} (h : s.role.dwell = .running n) :
    s.dwellEnds = s.asEvent (fun v => (dwellComplete v).preemptTest) := by
  simp only [State.dwellEnds, h]
  rfl

/-- R139, R148: the hold-down expires. -/
theorem holdDownEnds_preempts {n : Nat} (hn : s.role.holdDown = .running n) (hp : s.role.phase = .none)
    (hr : s.ready = true) (hc : prefersOther s ∨ s.role.dwell = .complete) :
    s.holdDownEnds.role = plannedRole (holdStopped s) (preemptReason s) := by
  rw [holdDownEnds_of_running (by simp [hn]), asEvent_role, preemptTest_of_ready (s := holdStopped s) hp rfl hr
    (hc.imp_left (preferredStandby_of_ready hr).mpr), beginPlanned_role]
  rfl

theorem holdDownEnds_rests {n : Nat} (hn : s.role.holdDown = .running n)
    (hc : s.role.phase ≠ .none ∨ s.ready = false ∨ (¬ prefersOther s ∧ s.role.dwell ≠ .complete)) :
    s.holdDownEnds = holdStopped s := by
  have htest : (holdStopped s).preemptTest = holdStopped s := preemptTest_of_not (by
    rcases hc with h | h | ⟨h1, h2⟩
    · exact .inl h
    · exact .inr (.inr (.inl h))
    · exact .inr (.inr (.inr ⟨not_prefersOther (s := s) h1, h2⟩)))
  rw [holdDownEnds_of_running (by simp [hn])]
  exact (asEvent_unmoved (by rw [htest]; rfl) (by rw [htest]; rfl) (by rw [htest]; rfl)).trans htest

/-- R147, R148: the fitness dwell expires. -/
theorem dwellEnds_preempts {n : Nat} (hn : s.role.dwell = .running n) (hp : s.role.phase = .none)
    (hr : s.ready = true) (hh : s.role.holdDown = .stopped) :
    s.dwellEnds.role = plannedRole (dwellComplete s) (preemptReason s) := by
  rw [dwellEnds_of_running hn, asEvent_role, preemptTest_of_ready (s := dwellComplete s) hp hh hr (.inr rfl), beginPlanned_role]
  rfl

theorem dwellEnds_rests {n : Nat} (hn : s.role.dwell = .running n)
    (hc : s.role.phase ≠ .none ∨ s.ready = false ∨ s.role.holdDown ≠ .stopped) : s.dwellEnds = dwellComplete s := by
  have htest : (dwellComplete s).preemptTest = dwellComplete s := preemptTest_of_not (by
    rcases hc with h | h | h
    · exact .inl h
    · exact .inr (.inr (.inl h))
    · exact .inr (.inl h))
  rw [dwellEnds_of_running hn]
  exact (asEvent_unmoved (by rw [htest]; rfl) (by rw [htest]; rfl) (by rw [htest]; rfl)).trans htest

theorem restartExpiry_of_running {n : Nat} (h : s.mirror.restartHold = .running n) :
    s.restartExpiry = { s with mirror := { s.mirror with restartHold := .expired } } := by simp [State.restartExpiry, h]

theorem restartExpiry_of_not_running (h : ∀ n, s.mirror.restartHold ≠ .running n) : s.restartExpiry = s := by
  unfold State.restartExpiry
  split
  · rename_i n hn; exact absurd hn (h n)
  · rfl
  · rfl

/-- Settles O44: each expiry is the stopping of its timer and, for two of them, the preemption test that follows. -/
theorem roleTimersExpire : Obligations.RoleTimersExpire := by
  refine ⟨fun s => ⟨fun n hn => ⟨fun hp hr hc => ?_, fun hc => ?_⟩, fun n hn => ⟨fun hp hr hh => ?_, fun hc => ?_⟩,
    fun hs => ?_, fun hs => ?_⟩, fun s => ⟨fun h => ?_, fun h => ?_, fun n hn => ?_, fun hn => ?_, fun f hf => ?_⟩⟩
  · have hrole : (s.holdDownEnds).role = _ := holdDownEnds_preempts hn hp hr hc
    have hpref : s.preferredStandby = true ↔ prefersOther s := preferredStandby_of_ready hr
    refine ⟨_, rfl, ?_⟩
    rw [hrole]
    exact ⟨rfl, rfl, rfl, rfl, fun h => congrArg some (if_pos (hpref.mpr h)), fun h => congrArg some (if_neg (mt hpref.mp h))⟩
  · exact congrArg Host.Outcome.next (holdDownEnds_rests hn hc)
  · have hrole : (s.dwellEnds).role = _ := dwellEnds_preempts hn hp hr hh
    refine ⟨_, rfl, ?_⟩
    rw [hrole]
    exact ⟨rfl, rfl, rfl, rfl⟩
  · exact congrArg Host.Outcome.next (dwellEnds_rests hn hc)
  · exact congrArg Host.Outcome.next (if_neg (by simp [hs, Timer.isRunning]))
  · have hrest : s.dwellEnds = s := by rcases hs with hs | hs <;> simp [State.dwellEnds, hs]
    exact congrArg Host.Outcome.next hrest
  · exact congrArg Host.Outcome.next (if_pos ((isRunning_iff _).mpr h))
  · exact congrArg Host.Outcome.next (if_neg (by simp [h, Timer.isRunning]))
  · exact congrArg Host.Outcome.next (restartExpiry_of_running hn)
  · exact congrArg Host.Outcome.next (restartExpiry_of_not_running hn)
  · exact congrArg Host.Outcome.next (if_neg (by simp [hf, Timer.isRunning]))

end Sys2Proof.MirrorChannel

/-! The walk (R111 to R116): a step of the walk cursor, and a walk that RESYNC or a PULSE starts. -/

namespace Sys2Proof.MirrorChannel

open Sys2Proof Sys2Proof.Machine Sys2Proof.Laws Sys2Proof.SessionTable Sys2Proof.FramePath Sys2Proof.Cutover

variable {s t u : State}

/-! ## One handle examined (R114) -/

theorem smap_put_put {α : Type} (m : SMap α) (k : Nat) (x y : α) : SMap.put (SMap.put m k x) k y = SMap.put m k y := by
  induction m with
  | nil => simp [SMap.put]
  | cons z es ih =>
    by_cases hlt : k < z.1
    · simp [SMap.put, hlt]
    · by_cases heq : k = z.1
      · simp [SMap.put, heq]
      · simp [SMap.put, hlt, heq, ih]

theorem setEntry_setEntry (s : State) (h : Nat) (e x : Entry) : (s.setEntry h e).setEntry h x = s.setEntry h x := by
  simp [State.setEntry, smap_put_put]

/-- R91: an entry that stands in no lane leaves the lanes as they are. -/
theorem outOfLanes_of_not_mem {m : Mirror} {h : Nat} (hu : h ∉ m.urgent) (hn : h ∉ m.normal) : m.outOfLanes h = m := by
  have keep : ∀ {hs : List Nat}, h ∉ hs → hs.filter (· != h) = hs := fun {hs} hh =>
    List.filter_eq_self.mpr (fun g hg => by simpa using fun hgh : g = h => hh (hgh ▸ hg))
  simp [Mirror.outOfLanes, keep hu, keep hn]

/-- R114: the entry is one that the walk queues. -/
theorem walkQueues_iff (e : Entry) : State.walkQueues e = true ↔ ∃ d m l, e.body = .live d m l ∧ m.peer = .absent ∧
    m.queued = none ∧ m.inflight = none ∧ l.unprotected = false := by
  obtain ⟨fam, pr, o, i, c, n, x, b⟩ := e
  cases b with
  | live d m l =>
    simp only [State.walkQueues, Entry.mirror?, Entry.live?, Bool.and_eq_true, Option.isNone_iff_eq_none, beq_iff_eq,
      Bool.not_eq_true', Body.live.injEq]
    exact ⟨fun ⟨⟨⟨h1, h2⟩, h3⟩, h4⟩ => ⟨d, m, l, ⟨rfl, rfl, rfl⟩, h3, h1, h2, h4⟩,
      fun ⟨_, _, _, ⟨rfl, rfl, rfl⟩, h3, h1, h2, h4⟩ => ⟨⟨⟨h1, h2⟩, h3⟩, h4⟩⟩
  | tentative => simp [State.walkQueues, Entry.mirror?]
  | retiring d m bs => simp [State.walkQueues, Entry.live?]

theorem walkExamine_passes {h : Nat} (hn : ∀ e, s.entry? h = some e → State.walkQueues e = false) : s.walkExamine h = s := by
  unfold State.walkExamine
  split
  · rename_i e he
    simp [hn e he]
  · rfl

theorem walkExamine_queues {h : Nat} {e : Entry} {d : Declared} {m : MirrorPart} {l : LivePart} (he : s.entry? h = some e)
    (hb : e.body = .live d m l) (hq : State.walkQueues e = true) (hu : h ∉ s.mirror.urgent) (hn : h ∉ s.mirror.normal) :
    s.walkExamine h =
      { s.setEntry h (e.withLive d { m with lane := some .normal, queued := some .declare, walk := true } l) with
        mirror := { s.mirror with
          normal := s.mirror.normal ++ [h]
          walkPending := s.mirror.walkPending + 1, walkQueued := s.mirror.walkQueued + 1 } } := by
  let m1 : Mirror := { s.mirror with normal := s.mirror.normal ++ [h] }
  let e1 : Entry := e.withLive d { m with lane := some .normal, queued := some .declare } l
  have hplace : s.lanePlace h .normal false .declare = State.setEntry { s with mirror := m1 } h e1 := by
    unfold State.lanePlace
    rw [outOfLanes_of_not_mem hu hn]
    refine (modifyEntry_of_entry (s := { s with mirror := m1 }) he _).trans ?_
    simp only [Entry.mapMirror, hb]
    rfl
  have hself : (State.setEntry { s with mirror := m1 } h e1).entry? h = some e1 := by simp
  simp only [State.walkExamine, he, hq, if_true, hplace]
  rw [modifyEntry_of_entry hself, setEntry_setEntry]
  rfl

/-! ## A step of the cursor (R114, R116) -/

/-- R114: the handle at the cursor examined and the cursor moved on. -/
def cursorMoved (s : State) : State :=
  { s.walkExamine s.mirror.cursor with
    mirror := { (s.walkExamine s.mirror.cursor).mirror with cursor := s.mirror.cursor + 1 } }

theorem walkExamine_role_health (s : State) (h : Nat) :
    (s.walkExamine h).role = s.role ∧ (s.walkExamine h).health = s.health := by
  refine ⟨?_, (walkExamine_held s h).health⟩
  unfold State.walkExamine
  split
  · split
    · exact ((lanePlace_lanes s h _ _ _).trans (modifyEntry_lanes _ h _)).role
    · rfl
  · rfl

/-- R114, R116: a step that leaves the cursor short of 16,384 ends no walk. -/
theorem exec_walkCursorStep (hw : s.mirror.state = .walking)
    (hroom : s.mirror.urgent.length + s.mirror.normal.length < 512) (hc : s.mirror.cursor < 16383)
    (hp : s.role.phase ≠ .settle) : exec .walkCursorStep s = .next (cursorMoved s) := by
  obtain ⟨hrole, hhealth⟩ := walkExamine_role_health s s.mirror.cursor
  have hready : s.walkReady = true := by
    simp only [State.walkReady, hw, Bool.and_eq_true, decide_eq_true_eq, beq_self_eq_true, true_and]
    exact ⟨hroom, Nat.lt_succ_of_lt hc⟩
  have hfin : s.walkStep.finish = cursorMoved s := by
    have hstep : s.walkStep = cursorMoved s := if_pos hready
    have hcur : (cursorMoved s).walkDone = false := by
      have : s.mirror.cursor + 1 ≠ Config.handles := by simp only [Config.handles]; omega
      simp [State.walkDone, cursorMoved, this]
    rw [hstep]
    exact finish_of_undone (settleDone_of_phase (by rwa [show (cursorMoved s).role = s.role from hrole])) hcur
  have hevent : s.walkEvent = s.asEvent (fun v => v.walkStep.finish) := if_pos hready
  refine congrArg Host.Outcome.next (hevent.trans ((asEvent_unmoved ?_ ?_ ?_).trans hfin)) <;> rw [hfin]
  · exact congrArg Role.phase hrole
  · exact congrArg Role.active hrole
  · exact hhealth

/-- Settles O34: the cursor's step is the examination of one handle, of which `walkQueues_iff` says what it queues. -/
theorem walkCursorQueuesWhatTheTargetLacks : Obligations.WalkCursorQueuesWhatTheTargetLacks := by
  intro s hw hroom hc hp _
  rw [exec_walkCursorStep hw hroom hc hp, cursorMoved]
  refine ⟨fun e d m l he hb hpeer hq hi hun hu hn => ?_, fun hno => ?_⟩
  · rw [walkExamine_queues he hb ((walkQueues_iff e).mpr ⟨d, m, l, hb, hpeer, hq, hi, hun⟩) hu hn]
    rfl
  · rw [walkExamine_passes fun e he => ?_]
    by_contra hcon
    obtain ⟨d, m, l, hb, hrest⟩ := (walkQueues_iff e).mp (by simpa using hcon)
    exact hno ⟨e, d, m, l, he, hb, hrest⟩

/-! ## A walk started (R111 to R113) -/

/-- R112: the state just before the RETIRING entries are freed. -/
def walkFreed (s : State) (f : Fw) : State := abandoned s (some f) .walking 0 true

/-- R112, R113: the walk's BEGIN-WALK batch sent, the walk not yet counted. -/
def walkBegun (s : State) (f : Fw) : State :=
  ((walkFreed s f).freeAll ((walkFreed s f).handlesIn .retiring)).sendBatch true [] []

theorem walkStart_eq (s : State) (f : Fw) : s.walkStart f = (walkBegun s f).inc .walks := rfl

theorem walkFreed_tableOk (f : Fw) (hok : s.tableOk) : (walkFreed s f).tableOk :=
  (mapEntries_held s phase_forget).table hok

/-- R111 to R113: a walk in which nothing has been done but the sending of its BEGIN-WALK batch. -/
def walkBegin (m : Mirror) (f : Fw) : Mirror :=
  { target := some f, state := .walking, urgent := [], normal := [],
    slots := [{ serial := m.nextSerial, age := 0, begin := true, records := [] }], nextSerial := m.nextSerial + 1,
    timeouts := 0, cursor := 0, walkPending := 0, walkQueued := 0, beginPending := true, restartHold := .stopped }

/-- R99: with no batch outstanding the next serial is free. -/
theorem nextSerial_of_empty (h : s.mirror.slots = []) : s.nextSerial = s.mirror.nextSerial := by
  simp [State.nextSerial, h, freshSerial]

theorem walkStart_begins (s : State) (f : Fw) : (s.walkStart f).mirror = walkBegin s.mirror f := by
  have hidle : ((walkFreed s f).freeAll ((walkFreed s f).handlesIn .retiring)).mirror = (walkFreed s f).mirror :=
    freeAll_mirror_of_idles (s := walkFreed s f) ⟨rfl, rfl, rfl⟩ _
  rw [walkStart_eq, inc_mirror, walkBegun, sendBatch_mirror, withBatch, nextSerial_of_empty (by rw [hidle]; rfl), hidle]
  rfl

theorem walkBegun_table (s : State) (f : Fw) : (walkBegun s f).table =
    ((walkFreed s f).freeAll ((walkFreed s f).handlesIn .retiring)).table := (sendBatch_sends _ _ _ _).table

theorem walkStart_entry? (s : State) (f : Fw) (h : Nat) : (s.walkStart f).entry? h =
    ((walkFreed s f).freeAll ((walkFreed s f).handlesIn .retiring)).entry? h :=
  entry?_of_table (congrArg Table.entries (walkBegun_table s f)) h

/-- R8: the freeing of a list that holds every RETIRING entry leaves none. -/
theorem freeAll_noRetiring {hs : List Nat} (hok : s.tableOk) (hall : ∀ h, s.phase h = .retiring → h ∈ hs) (h : Nat) :
    (s.freeAll hs).phase h ≠ .retiring := by
  by_cases hp : s.phase h = .retiring
  · rw [freeAll_phase_of_mem hok (hall h hp)]
    decide
  · rcases (freeAll_thins s hs hok).2 h with hq | hq <;> rw [hq]
    · exact hp
    · decide

theorem walkStart_noRetiring (f : Fw) (hok : s.tableOk) (h : Nat) : (s.walkStart f).phase h ≠ .retiring := by
  rw [phase_congr (walkStart_entry? s f h)]
  exact freeAll_noRetiring (walkFreed_tableOk f hok) (fun _ => (mem_handlesIn (by decide)).mpr) h

theorem phase_of_mirror {e : Entry} {m : MirrorPart} (h : e.mirror? = some m) : e.phase = .live ∨ e.phase = .retiring := by
  unfold Entry.mirror? at h
  unfold Entry.phase
  split at h
  · cases h
  · exact .inl (by simp [*])
  · exact .inr (by simp [*])

theorem forget_of_live {e : Entry} {d : Declared} {m : MirrorPart} {l : LivePart} (hb : e.body = .live d m l) :
    e.forget = e.withLive d m.forget { l with unprotected := false } := by
  simp [Entry.forget, hb, Entry.withLive]

theorem live_of_phase {e : Entry} (h : e.phase = .live) : ∃ d m l, e.body = .live d m l := by
  unfold Entry.phase at h
  split at h
  · cases h
  · exact ⟨_, _, _, by assumption⟩
  · cases h

/-- R112: what is left is ABSENT at the target, with nothing queued or inflight. -/
theorem walkStart_forgets {h : Nat} {m : MirrorPart} (f : Fw) (hok : s.tableOk)
    (hm : ((s.walkStart f).entry? h).bind Entry.mirror? = some m) : ∃ m0 : MirrorPart, m = m0.forget := by
  have hok' := walkFreed_tableOk f hok
  obtain ⟨x, hx, hxm⟩ := Option.bind_eq_some_iff.mp hm
  have hxlive : x.phase = .live := (phase_of_mirror hxm).resolve_right fun k =>
    walkStart_noRetiring f hok h (by rw [phase_of_entry hx, k])
  have hxphase : (walkFreed s f).phase h = .live := by
    have hthin := (freeAll_thins _ ((walkFreed s f).handlesIn .retiring) hok').2 h
    rw [← phase_congr (walkStart_entry? s f h), phase_of_entry hx, hxlive] at hthin
    exact (hthin.resolve_right (by decide)).symm
  have hfreed : (walkFreed s f).entry? h = (s.entry? h).map Entry.forget := entry?_mapEntries s Entry.forget h
  have hslive : s.phase h = .live := by
    rw [← hxphase]
    exact (phase_of_map (by rw [hfreed, Option.map_map]; exact Option.map_congr fun e _ => (phase_forget e).symm))
  obtain ⟨e, he, hph⟩ := entry_of_phase hslive (by decide)
  obtain ⟨d, m0, l, hb⟩ := live_of_phase hph
  rw [he, Option.map_some, forget_of_live hb] at hfreed
  have hnot : h ∉ (walkFreed s f).handlesIn .retiring := by
    rw [mem_handlesIn (by decide), hxphase]
    decide
  obtain ⟨n, hn⟩ := freeAll_live hok' hnot hfreed rfl
  rw [walkStart_entry?, hn] at hm
  exact ⟨m0, (Option.some.inj hm).symm⟩

/-- R155: the freeing of entries that are not marked leaves the roles. -/
theorem freeAll_role {hs : List Nat} (hok : s.tableOk) (hm : ∀ h ∈ hs, s.isMarked h = false) :
    (s.freeAll hs).role = s.role := by
  induction hs generalizing s with
  | nil => rfl
  | cons h hs ih =>
    have hstep : (s.freeEntry h).role = s.role := by rw [freeEntry_role, hm h List.mem_cons_self]; rfl
    rw [freeAll_cons, ih ((freeEntry_still s h).table hok)
      (fun g hg => freeEntry_isMarked hok (hm g (List.mem_cons_of_mem h hg))), hstep]

/-- R112: a RETIRING entry is not marked, so that the start of a walk leaves the roles. -/
theorem walkStart_role (f : Fw) (hok : s.tableOk) : (s.walkStart f).role = s.role := by
  have hrole : ((walkFreed s f).freeAll ((walkFreed s f).handlesIn .retiring)).role = s.role :=
    freeAll_role (walkFreed_tableOk f hok) fun h hh => by
      obtain ⟨e, he, hp⟩ := entry_of_phase ((mem_handlesIn (by decide)).mp hh) (by decide)
      exact isMarked_of_not_live he (by rw [hp]; decide)
  exact (sendBatch_sends _ _ _ _).role.trans hrole

/-- R111: the walk is counted. -/
theorem walkStart_count (s : State) (f : Fw) {c : Counter} (h1 : c ≠ .txDrop) (h2 : c ≠ .batchesSent)
    (h3 : c ≠ .parkDiscarded) (h4 : c ≠ .entriesFreed) :
    (s.walkStart f).count c = if c = .walks then min (s.count .walks + 1) Config.counterMax else s.count c := by
  have hbegun : ∀ d : Counter, d ≠ .txDrop → d ≠ .batchesSent → d ≠ .parkDiscarded → d ≠ .entriesFreed →
      (walkBegun s f).count d = s.count d := fun d k1 k2 k3 k4 =>
    (sendBatch_count _ _ _ _ k1 k2).trans ((freeAll_frees (walkFreed s f) _).counts d k1 k3 k4)
  rw [walkStart_eq, count_inc, hbegun c h1 h2 h3 h4, hbegun .walks (by decide) (by decide) (by decide) (by decide)]

/-! ## RESYNC (R206) -/

theorem exec_resync {q : Request} {rest : List Request} (hh : s.heads q rest 17) (hp : s.permitsWrite q.port = true) :
    exec .resync s = .next ((State.resyncOf { s with requests := rest }).send q) :=
  congrArg Host.Outcome.next (serve_write hh hp rfl (Nat.zero_le _) (fun v _ => v.resyncOf))

/-- Settles O57: the three answers of `State.resyncOf`, and the walk that the last of them starts. -/
theorem resyncStartsAWalk : Obligations.ResyncStartsAWalk := by
  intro s q rest hh hp hok
  rw [exec_resync hh hp]
  let v : State := { s with requests := rest }
  refine ⟨fun hph => ?_, fun hph ht => ?_, fun f hph ht => ?_⟩
  · have hv : v.resyncOf = v.refuse .busy := if_pos hph
    rw [hv]
    exact congrArg Host.Outcome.next (send_answered hh rfl)
  · have hv : v.resyncOf = v.refuse .notReady := by simp [v, State.resyncOf, hph, ht]
    rw [hv]
    exact congrArg Host.Outcome.next (send_answered hh rfl)
  · let a : Answer := { status := .ok, results := [], state := v.walkStart f }
    have hv : v.resyncOf = a := by simp [v, a, State.resyncOf, hph, ht]
    have k : Sends (v.walkStart f) (a.send q) := send_sends a q
    have hstill := walkStart_still v f
    have hentry : ∀ h, (a.send q).entry? h = (v.walkStart f).entry? h := entry?_of_table (by rw [k.table])
    rw [hv]
    refine ⟨_, rfl, k.requests.trans hstill.requests, send_repliesLast ?_, k.mirror.trans (walkStart_begins v f), fun h => ?_,
      fun h m hm => ?_, k.role.trans (walkStart_role (s := v) f hok), k.health.trans hstill.health, ?_⟩
    · obtain ⟨-, -, hl, -⟩ := hh
      exact (hstill.sends q.port).1.trans hl
    · rw [phase_congr (hentry h)]
      exact walkStart_noRetiring (s := v) f hok h
    · rw [hentry] at hm
      obtain ⟨m0, rfl⟩ := walkStart_forgets (s := v) f hok hm
      exact ⟨rfl, rfl, rfl, rfl, rfl⟩
    · exact (handTx_count _ _ _ (by decide)).trans
        (walkStart_count v f (by decide) (by decide) (by decide) (by decide))

end Sys2Proof.MirrorChannel

/-! One status of a record (R103, R104, R115, R156): what it makes of its LIVE entry, and the test of the entry's mark. -/

namespace Sys2Proof.MirrorChannel

open Sys2Proof Sys2Proof.Machine Sys2Proof.Laws Sys2Proof.SessionTable Sys2Proof.FramePath

variable {s t u : State} {serial : Word16} {r : BatchRecord} {st : SyncStatus} {note : Note} {e : Entry} {d : Declared}
  {m : MirrorPart} {l : LivePart}

/-! ## What a status may touch besides entries -/

/-- From `s` to `t` the roles and the Park Buffer are as they were, and of the counters only TX_DROP and the two of records may
have advanced. -/
structure Acks (s t : State) : Prop where
  role : t.role = s.role
  park : t.park = s.park
  counts : ∀ c, c ≠ .txDrop → c ≠ .recordsAccepted → c ≠ .recordsRefused → t.count c = s.count c

theorem Acks.trans (h : Acks s t) (k : Acks t u) : Acks s u :=
  ⟨k.role.trans h.role, k.park.trans h.park, fun c h1 h2 h3 => (k.counts c h1 h2 h3).trans (h.counts c h1 h2 h3)⟩

theorem acks_of_lanes (h : Lanes s t) : Acks s t := ⟨h.role, h.park, fun c _ _ _ => h.count c⟩

theorem inc_acks (s : State) {c : Counter} (hc : c = .recordsAccepted ∨ c = .recordsRefused) : Acks s (s.inc c) :=
  ⟨rfl, rfl, fun k _ h2 h3 => (count_inc s k c).trans (if_neg (by rcases hc with rfl | rfl <;> assumption))⟩

theorem raise_acks (s : State) (ev : EventId) (bs : List Byte) : Acks s (s.raise ev bs) :=
  ⟨(raise_sends s ev bs).role, (raise_sends s ev bs).park, fun _ h1 _ _ => raise_count s ev bs h1⟩

/-! ## The walk flag and the snapshot (R115) -/

theorem settleWalkOf_lanes (s : State) (r : BatchRecord) : Lanes s (s.settleWalkOf r) := .ite (settleWalk_lanes s _) (.refl s)

theorem settleWalkOf_self (he : s.entry? r.handle = some (e.withLive d m l)) :
    (s.settleWalkOf r).entry? r.handle = some (e.withLive d { m with walk := m.walk && !r.walk } l) := by
  cases hw : r.walk with
  | false => rw [State.settleWalkOf, hw, if_neg Bool.false_ne_true, he]; simp
  | true => rw [State.settleWalkOf, hw, if_pos rfl, settleWalk_live he]; simp

theorem takeSnapshot_eq (m : MirrorPart) (sn : Option MirEdges) :
    m.takeSnapshot sn = { m with edges := if m.edges.isSome = true ∧ sn.isSome = true then sn else m.edges } := by
  obtain ⟨edges, p, ln, q, w, i⟩ := m
  cases edges <;> cases sn <;> rfl

/-! ## A record settled (R103, R104) -/

theorem settleRecord_accepted (hk : r.kind = .declare) :
    s.settleRecord r note .accept serial = (s.declareAccepted r note).settleWalkOf r := by simp [State.settleRecord, hk]

theorem settleRecord_owned (hk : r.kind = .declare) (hst : st ≠ .accept) :
    s.settleRecord r .owned st serial = (s.inc .recordsRefused).settleWalkOf r := by
  cases st <;> simp_all [State.settleRecord]

theorem settleRecord_refused (hk : r.kind = .declare) (hst : st ≠ .accept) (hn : note ≠ .owned) :
    s.settleRecord r note st serial = (s.declareRefused r st serial).settleWalkOf r := by
  cases st <;> simp_all [State.settleRecord]

theorem settleRecord_refresh_accepted (hk : r.kind = .refresh) : s.settleRecord r note .accept serial =
    (s.modifyEntry r.handle (·.mapMirror (·.takeSnapshot r.edges))).inc .recordsAccepted := by
  simp [State.settleRecord, hk]

theorem settleRecord_refresh_refused (hk : r.kind = .refresh) (hst : st ≠ .accept) :
    s.settleRecord r note st serial = s.inc .recordsRefused := by
  cases st <;> simp_all [State.settleRecord]

/-! ### A DECLARE record -/

theorem acceptedPeer_eq (note : Note) : acceptedPeer note = if note = .superseded then .behind else .current := by
  cases note <;> rfl

/-- R103: the entry as an accepted DECLARE record leaves it, its walk flag not yet settled. -/
theorem declareAccepted_self (he : s.entry? r.handle = some (e.withLive d m l)) :
    (s.declareAccepted r note).entry? r.handle =
      some (e.withLive d { m.takeSnapshot r.edges with peer := acceptedPeer note } { l with unprotected := false }) := by
  rw [State.declareAccepted, entry?_inc, modifyEntry_self, he]
  rfl

theorem declareAccepted_acks (s : State) (r : BatchRecord) (note : Note) : Acks s (s.declareAccepted r note) :=
  (acks_of_lanes (modifyEntry_lanes s _ _)).trans (inc_acks _ (.inl rfl))

/-- R103: a LIVE entry that the target refuses, not yet counted. -/
def unprotectedState (s : State) (r : BatchRecord) : State :=
  (s.unqueue r.handle).modifyEntry r.handle (·.mapLive (fun l => { l with unprotected := true }))

theorem declareRefused_eq (he : s.entry? r.handle = some (e.withLive d m l)) : s.declareRefused r st serial =
    ((unprotectedState s r).inc .recordsRefused).raise .syncRefused
      (be2 r.handle ++ be1 st.code ++ be2 serial.toNat) := by
  have hp : s.phase r.handle = .live := (phase_of_entry he).trans rfl
  unfold State.declareRefused
  rw [if_pos hp]
  rfl

theorem unprotectedState_lanes (s : State) (r : BatchRecord) : Lanes s (unprotectedState s r) :=
  (unqueue_lanes s _).trans (modifyEntry_lanes _ _ _)

theorem declareRefused_self (he : s.entry? r.handle = some (e.withLive d m l)) :
    (s.declareRefused r st serial).entry? r.handle =
      some (e.withLive d { m with lane := none, queued := none } { l with unprotected := true }) := by
  rw [declareRefused_eq he, raise_entry?, entry?_inc, unprotectedState, modifyEntry_self, unqueue_self, he]
  rfl

theorem declareRefused_acks (he : s.entry? r.handle = some (e.withLive d m l)) :
    Acks s (s.declareRefused r st serial) := by
  rw [declareRefused_eq he]
  exact ((acks_of_lanes (unprotectedState_lanes s r)).trans (inc_acks _ (.inr rfl))).trans (raise_acks _ _ _)

theorem declareRefused_count (he : s.entry? r.handle = some (e.withLive d m l)) :
    (s.declareRefused r st serial).count .recordsRefused = min (s.count .recordsRefused + 1) Config.counterMax := by
  rw [declareRefused_eq he, raise_count _ _ _ (by decide), count_inc, if_pos rfl, (unprotectedState_lanes s r).count]

theorem declareRefused_event (he : s.entry? r.handle = some (e.withLive d m l)) :
    (s.declareRefused r st serial).event .syncRefused = (s.event .syncRefused).next := by
  rw [declareRefused_eq he, raise_event, if_pos rfl, event_inc, (unprotectedState_lanes s r).event]

/-! ### A record of either kind -/

/-- R103, R104: a DECLARE or REFRESH record of a LIVE entry moves neither the roles nor the Park Buffer. -/
theorem settleRecord_acks (hk : r.kind ≠ .retire) (he : s.entry? r.handle = some (e.withLive d m l)) :
    Acks s (s.settleRecord r note st serial) := by
  cases hkind : r.kind with
  | retire => exact absurd hkind hk
  | refresh =>
    by_cases hst : st = .accept
    · subst hst
      rw [settleRecord_refresh_accepted hkind]
      exact (acks_of_lanes (modifyEntry_lanes s _ _)).trans (inc_acks _ (.inl rfl))
    · rw [settleRecord_refresh_refused hkind hst]
      exact inc_acks _ (.inr rfl)
  | declare =>
    by_cases hst : st = .accept
    · subst hst
      rw [settleRecord_accepted hkind]
      exact (declareAccepted_acks s r note).trans (acks_of_lanes (settleWalkOf_lanes _ r))
    · by_cases hn : note = .owned
      · subst hn
        rw [settleRecord_owned hkind hst]
        exact (inc_acks s (.inr rfl)).trans (acks_of_lanes (settleWalkOf_lanes _ r))
      · rw [settleRecord_refused hkind hst hn]
        exact (declareRefused_acks he).trans (acks_of_lanes (settleWalkOf_lanes _ r))

/-! ## A status applied to a LIVE entry (R102) -/

/-- R102: the status is applied to the entry whose record is no longer inflight. -/
theorem applyStatus_of_live {i : Inflight} (he : s.entry? r.handle = some (e.withLive d m l)) (hi : m.inflight = some i) :
    s.applyStatus serial r st = ((s.clearInflight r.handle).settleRecord r i.note st serial).offerMark r i.note st := by
  have hin : ((s.entry? r.handle).bind Entry.mirror?).bind (·.inflight) = some i := by rw [he]; exact hi
  rw [State.applyStatus, hin]

theorem clearInflight_live (he : s.entry? r.handle = some (e.withLive d m l)) :
    (s.clearInflight r.handle).entry? r.handle = some (e.withLive d { m with inflight := none } l) := by
  rw [clearInflight_self, he]
  rfl

/-- R156: an entry without a mark is not tested. -/
theorem offerMark_of_unmarked (he : s.entry? r.handle = some (e.withLive d m l)) (hm : l.marked = false) :
    s.offerMark r note st = s := by
  simp [State.offerMark, he, Entry.withLive, Entry.marked, Entry.live?, hm]

/-- R156: the test of a marked entry. -/
theorem offerMark_of_marked (he : s.entry? r.handle = some (e.withLive d m l)) (hm : l.marked = true) :
    s.offerMark r note st =
      if r.kind = .declare ∧ st ≠ .accept ∧ note ≠ .owned then s.clearMark r.handle .released
      else if m.peer = .current ∧ m.queued = none ∧ m.inflight = none then
        if (e.withLive d m l).anyDrift then (if st = .accept then s.raiseNeed r.handle .refresh else s)
        else s.clearMark r.handle .confirmed
      else s := by
  have h1 : (e.withLive d m l).marked = true := hm
  have h2 : (e.withLive d m l).mirror? = some m := rfl
  simp only [State.offerMark, he, h1, h2]

/-- R45: an entry with no edges, or whose mirrored edges are its own, has no drift. -/
theorem anyDrift_of_same (h : e.tcp = none ∨ ∃ x, e.tcp = some x ∧ m.edges = some x.snapshot) :
    (e.withLive d m l).anyDrift = false := by
  rcases h with h | ⟨x, h1, h2⟩ <;> simp [Entry.anyDrift, Entry.withLive, Entry.mirror?, *]

theorem anyDrift_of_other {x : Tracking} {z : MirEdges} (h1 : e.tcp = some x) (h2 : m.edges = some z)
    (hne : z ≠ x.snapshot) : (e.withLive d m l).anyDrift = true := by
  simp [Entry.anyDrift, Entry.withLive, Entry.mirror?, h1, h2, Ne.symm hne]

/-- R155, R171: what the clearing of a mark leaves. -/
theorem clearMark_clears {h : Nat} (how : MarkEnd) (he : s.entry? h = some (e.withLive d m l)) (hm : l.marked = true) :
    (s.clearMark h how).isMarked h = false ∧ (s.clearMark h how).role.marked = s.role.marked - 1 ∧
      (s.clearMark h how).park.releaseQueue = s.park.releaseQueue ++ (if l.chain = [] then [] else [h]) ∧
      (s.clearMark h how).role.record = (s.tallyMark how).role.record := by
  have hmark : s.isMarked h = true := (isMarked_of_live he).trans hm
  have hrole := clearMark_role_of_marked how hmark
  refine ⟨by rw [clearMark_isMarked, if_pos rfl], ?_, clearMark_queue how he hm, ?_⟩
  · rw [hrole, unmarkedRole_marked]
    cases how <;> rfl
  · rw [hrole, unmarkedRole_eq]

theorem clearMark_released_count {h : Nat} (hm : s.isMarked h = true) : (s.clearMark h .released).count .releasedUnconfirmed =
    min (s.count .releasedUnconfirmed + 1) Config.counterMax := by
  have hc : (s.clearMark h .released).counters = (s.tallyMark .released).counters := by
    rw [clearMark_of_marked _ hm, joinRelease_eq]
    exact unmark_counters _ h
  simp only [State.count, hc]
  exact (count_inc _ .releasedUnconfirmed .releasedUnconfirmed).trans (if_pos rfl)

/-! ## An unmarked entry -/

/-- R103, R115: a DECLARE record of an unmarked LIVE entry, accepted. -/
theorem applyStatus_accepted {i : Inflight} (he : s.entry? r.handle = some (e.withLive d m l)) (hl : l.marked = false)
    (hi : m.inflight = some i) (hk : r.kind = .declare) :
    (s.applyStatus serial r .accept).entry? r.handle = some (e.withLive d
      { (m.takeSnapshot r.edges) with inflight := none, peer := acceptedPeer i.note, walk := m.walk && !r.walk }
      { l with unprotected := false }) ∧
    (s.applyStatus serial r .accept).count .recordsAccepted = min (s.count .recordsAccepted + 1) Config.counterMax := by
  have hin := clearInflight_live he
  have hself := settleWalkOf_self (declareAccepted_self (note := i.note) hin)
  rw [applyStatus_of_live he hi, settleRecord_accepted hk, offerMark_of_unmarked hself hl, hself]
  refine ⟨by simp only [takeSnapshot_eq], ?_⟩
  rw [(settleWalkOf_lanes _ r).count, State.declareAccepted, count_inc, if_pos rfl, (modifyEntry_lanes _ _ _).count,
    (clearInflight_lanes s _).count]

/-- R103, R115: a DECLARE record of an unmarked LIVE entry, refused by a target that has taken the session over. -/
theorem applyStatus_owned {i : Inflight} (he : s.entry? r.handle = some (e.withLive d m l)) (hl : l.marked = false)
    (hi : m.inflight = some i) (hk : r.kind = .declare) (hst : st ≠ .accept) (hn : i.note = .owned) :
    (s.applyStatus serial r st).entry? r.handle =
      some (e.withLive d { m with inflight := none, walk := m.walk && !r.walk } l) ∧
    (s.applyStatus serial r st).count .recordsRefused = min (s.count .recordsRefused + 1) Config.counterMax := by
  have hin := clearInflight_live he
  have hself := settleWalkOf_self (s := (s.clearInflight r.handle).inc .recordsRefused) hin
  rw [applyStatus_of_live he hi, hn, settleRecord_owned hk hst, offerMark_of_unmarked hself hl, hself]
  exact ⟨rfl, by rw [(settleWalkOf_lanes _ r).count, count_inc, if_pos rfl, (clearInflight_lanes s _).count]⟩

/-- R103, R115: a DECLARE record of an unmarked LIVE entry, refused. -/
theorem applyStatus_refused {i : Inflight} (he : s.entry? r.handle = some (e.withLive d m l)) (hl : l.marked = false)
    (hi : m.inflight = some i) (hk : r.kind = .declare) (hst : st ≠ .accept) (hn : i.note ≠ .owned) :
    (s.applyStatus serial r st).entry? r.handle = some (e.withLive d
      { m with inflight := none, lane := none, queued := none, walk := m.walk && !r.walk } { l with unprotected := true }) ∧
    (s.applyStatus serial r st).count .recordsRefused = min (s.count .recordsRefused + 1) Config.counterMax ∧
    (s.applyStatus serial r st).event .syncRefused = (s.event .syncRefused).next := by
  have hin := clearInflight_live he
  have hself := settleWalkOf_self (declareRefused_self (st := st) (serial := serial) hin)
  rw [applyStatus_of_live he hi, settleRecord_refused hk hst hn, offerMark_of_unmarked hself hl, hself]
  refine ⟨rfl, ?_, ?_⟩
  · rw [(settleWalkOf_lanes _ r).count, declareRefused_count hin, (clearInflight_lanes s _).count]
  · rw [(settleWalkOf_lanes _ r).event, declareRefused_event hin, (clearInflight_lanes s _).event]

/-- R103, R115: a DECLARE record of an unmarked LIVE entry, as its status and its note settle it. -/
theorem declareSettled {i : Inflight} (hk : r.kind = .declare) (he : s.entry? r.handle = some (e.withLive d m l))
    (hl : l.marked = false) (hi : m.inflight = some i) :
    ∃ m' l', ((s.applyStatus serial r st).entry? r.handle).map (·.body) = some (.live d m' l') ∧ m'.inflight = none ∧
      (st = .accept → m'.peer = (if i.note = .superseded then .behind else .current) ∧ l'.unprotected = false ∧
        m'.queued = m.queued ∧ (∀ x, m.edges.isSome = true → r.edges = some x → m'.edges = some x) ∧
        (s.applyStatus serial r st).count .recordsAccepted = min (s.count .recordsAccepted + 1) 4294967295) ∧
      (st ≠ .accept → m'.peer = m.peer ∧ m'.edges = m.edges ∧
        (s.applyStatus serial r st).count .recordsRefused = min (s.count .recordsRefused + 1) 4294967295) ∧
      (st ≠ .accept → i.note ≠ .owned → l'.unprotected = true ∧ m'.queued = none ∧ m'.lane = none ∧
        (s.applyStatus serial r st).event .syncRefused = (s.event .syncRefused).next) ∧
      (st ≠ .accept → i.note = .owned → l'.unprotected = l.unprotected ∧ m'.queued = m.queued) ∧
      m'.walk = (m.walk && !r.walk) := by
  by_cases hst : st = .accept
  · subst hst
    obtain ⟨hself, hcount⟩ := applyStatus_accepted (serial := serial) he hl hi hk
    refine ⟨_, _, congrArg (Option.map Entry.body) hself, rfl, fun _ => ⟨acceptedPeer_eq _, rfl, ?_, fun x hx hr => ?_, hcount⟩,
      fun k => absurd rfl k, fun k => absurd rfl k, fun k => absurd rfl k, rfl⟩
    · simp [takeSnapshot_eq]
    · simp [takeSnapshot_eq, hx, hr]
  · by_cases hn : i.note = .owned
    · obtain ⟨hself, hcount⟩ := applyStatus_owned (serial := serial) he hl hi hk hst hn
      exact ⟨_, _, congrArg (Option.map Entry.body) hself, rfl, fun k => absurd k hst, fun _ => ⟨rfl, rfl, hcount⟩,
        fun _ k => absurd hn k, fun _ _ => ⟨rfl, rfl⟩, rfl⟩
    · obtain ⟨hself, hcount, hevent⟩ := applyStatus_refused (serial := serial) he hl hi hk hst hn
      exact ⟨_, _, congrArg (Option.map Entry.body) hself, rfl, fun k => absurd k hst, fun _ => ⟨rfl, rfl, hcount⟩,
        fun _ _ => ⟨rfl, rfl, rfl, hevent⟩, fun _ k => absurd k hn, rfl⟩

/-- A counter advanced after a change of the table alone. -/
theorem inc_of_onlyTable {c : Counter} (ht : t = { s with table := t.table }) :
    t.inc c = { s with table := (t.inc c).table, counters := (t.inc c).counters } ∧ s.countsOnly (t.inc c) c 1 := by
  have hcount : ∀ k, t.count k = s.count k := fun k => by rw [ht]; rfl
  refine ⟨by rw [ht]; rfl, ?_, fun k hk => ?_⟩
  · rw [count_inc, if_pos rfl, hcount]
  · rw [count_inc, if_neg hk, hcount]

/-- R104: an entry's Mirror Engine fields rewritten and a record of it counted. -/
theorem refreshCounted (s : State) (r : BatchRecord) (g : MirrorPart → MirrorPart) (c : Counter)
    (ht : t = (s.clearInflight r.handle).modifyEntry r.handle (·.mapMirror g)) :
    t.inc c = { s with table := (t.inc c).table, counters := (t.inc c).counters } ∧ s.othersKept (t.inc c) r.handle ∧
      s.countsOnly (t.inc c) c 1 := by
  have honly : t = { s with table := t.table } := by
    rw [ht, modifyEntry_onlyTable, State.clearInflight, modifyEntry_onlyTable s]
  obtain ⟨h1, h2⟩ := inc_of_onlyTable (c := c) honly
  exact ⟨h1, ht ▸ othersKept_trans (clearInflight_others s _) (modifyEntry_others _ _ _), h2⟩

/-- R104: a REFRESH record of an unmarked LIVE entry. -/
theorem refreshSettled {i : Inflight} (hk : r.kind = .refresh) (he : s.entry? r.handle = some (e.withLive d m l))
    (hl : l.marked = false) (hi : m.inflight = some i) :
    s.applyStatus serial r st = { s with
      table := (s.applyStatus serial r st).table, counters := (s.applyStatus serial r st).counters } ∧
    s.othersKept (s.applyStatus serial r st) r.handle ∧
    (st = .accept → (s.applyStatus serial r st).entry? r.handle = some (e.withLive d
        { m with inflight := none
                 edges := if m.edges.isSome = true ∧ r.edges.isSome = true then r.edges else m.edges } l) ∧
      s.countsOnly (s.applyStatus serial r st) .recordsAccepted 1) ∧
    (st ≠ .accept → (s.applyStatus serial r st).entry? r.handle = some (e.withLive d { m with inflight := none } l) ∧
      s.countsOnly (s.applyStatus serial r st) .recordsRefused 1) := by
  have hin := clearInflight_live he
  by_cases hst : st = .accept
  · subst hst
    have hself : (((s.clearInflight r.handle).modifyEntry r.handle (·.mapMirror (·.takeSnapshot r.edges))).inc
        .recordsAccepted).entry? r.handle = some (e.withLive d (MirrorPart.takeSnapshot { m with inflight := none } r.edges) l) := by
      rw [entry?_inc, modifyEntry_self, hin]
      rfl
    obtain ⟨h1, h2, h3⟩ := refreshCounted s r (·.takeSnapshot r.edges) .recordsAccepted rfl
    rw [applyStatus_of_live he hi, settleRecord_refresh_accepted hk, offerMark_of_unmarked hself hl, hself]
    exact ⟨h1, h2, fun _ => ⟨by simp only [takeSnapshot_eq], h3⟩, fun k => absurd rfl k⟩
  · have hself : ((s.clearInflight r.handle).inc .recordsRefused).entry? r.handle =
        some (e.withLive d { m with inflight := none } l) := hin
    obtain ⟨h1, h3⟩ := inc_of_onlyTable (c := .recordsRefused) (modifyEntry_onlyTable s r.handle
      (·.mapMirror (fun m => { m with inflight := none })))
    rw [applyStatus_of_live he hi, settleRecord_refresh_refused hk hst, offerMark_of_unmarked hself hl, hself]
    exact ⟨h1, clearInflight_others s _, fun k => absurd k hst, fun _ => ⟨rfl, h3⟩⟩

/-! ## A marked entry (R156) -/

/-- R103, R104, R156: the record whose acceptance leaves a marked entry CURRENT, with no need. -/
def Completes (r : BatchRecord) (note : Note) (m : MirrorPart) : Prop :=
  m.queued = none ∧ ((r.kind = .refresh ∧ m.peer = .current) ∨ (r.kind = .declare ∧ note ≠ .superseded))

/-- R103, R104: the entry as such a record leaves it. -/
theorem completed (hc : Completes r note m) (he : s.entry? r.handle = some (e.withLive d m l)) (hi : m.inflight = none) :
    ∃ m' l', (s.settleRecord r note .accept serial).entry? r.handle = some (e.withLive d m' l') ∧
      m'.peer = .current ∧ m'.queued = none ∧ m'.inflight = none ∧ m'.edges = (m.takeSnapshot r.edges).edges ∧
      l'.marked = l.marked ∧ l'.chain = l.chain := by
  obtain ⟨hq, ⟨hk, hp⟩ | ⟨hk, hn⟩⟩ := hc
  · refine ⟨m.takeSnapshot r.edges, l, ?_, ?_⟩
    · rw [settleRecord_refresh_accepted hk, entry?_inc, modifyEntry_self, he]
      rfl
    · rw [takeSnapshot_eq]
      exact ⟨hp, hq, hi, rfl, rfl, rfl⟩
  · have hself := settleWalkOf_self (declareAccepted_self (note := note) he)
    refine ⟨_, _, by rw [settleRecord_accepted hk, hself], ?_⟩
    rw [takeSnapshot_eq]
    exact ⟨(acceptedPeer_eq note).trans (if_neg hn), hq, hi, rfl, rfl, rfl⟩

/-- R156: the mark tested after such a record: cleared as confirmed where the entry has no drift, else kept with a REFRESH. -/
theorem applyStatus_completes {i : Inflight} (he : s.entry? r.handle = some (e.withLive d m l)) (hl : l.marked = true)
    (hi : m.inflight = some i) (hc : Completes r i.note m) :
    ∃ v m' l', s.applyStatus serial r .accept =
        (if (e.withLive d m' l').anyDrift then v.raiseNeed r.handle .refresh else v.clearMark r.handle .confirmed) ∧
      Acks s v ∧ v.entry? r.handle = some (e.withLive d m' l') ∧ m'.queued = none ∧
      m'.edges = (m.takeSnapshot r.edges).edges ∧ l'.marked = true ∧ l'.chain = l.chain := by
  have hin := clearInflight_live he
  obtain ⟨m', l', hself, hp, hq, hi', hed, hl', hch⟩ := completed (serial := serial) (m := { m with inflight := none }) hc hin rfl
  have hk : r.kind ≠ .retire := by
    obtain ⟨-, ⟨hk, -⟩ | ⟨hk, -⟩⟩ := hc <;> simp [hk]
  refine ⟨_, m', l', ?_, (acks_of_lanes (clearInflight_lanes s _)).trans (settleRecord_acks hk hin), hself, hq, ?_, hl'.trans hl, hch⟩
  · rw [applyStatus_of_live he hi, offerMark_of_marked hself (hl'.trans hl), if_neg (fun k => k.2.1 rfl),
      if_pos ⟨hp, hq, hi'⟩, if_pos rfl]
  · rw [hed, takeSnapshot_eq, takeSnapshot_eq]

theorem takeSnapshot_edges {y z : MirEdges} {sn : Option MirEdges} (hy : m.edges = some y) (hz : sn = some z) :
    (m.takeSnapshot sn).edges = some z := by
  simp [takeSnapshot_eq, hy, hz]

/-- R155, R156: from `s` to `t` the mark of the entry at a handle has been cleared, and its chain is to be released. -/
def ClearsMark (s t : State) (h : Nat) (chain : List Parked) : Prop :=
  t.isMarked h = false ∧ t.role.marked = s.role.marked - 1 ∧
    t.park.releaseQueue = s.park.releaseQueue ++ (if chain = [] then [] else [h])

/-- R156: with no drift left the mark is cleared as confirmed. -/
theorem applyStatus_confirms {i : Inflight} (he : s.entry? r.handle = some (e.withLive d m l)) (hl : l.marked = true)
    (hi : m.inflight = some i) (hc : Completes r i.note m)
    (hsame : e.tcp = none ∨ ∃ x y, e.tcp = some x ∧ m.edges = some y ∧ r.edges = some x.snapshot) :
    ClearsMark s (s.applyStatus serial r .accept) r.handle l.chain ∧
      (s.applyStatus serial r .accept).role.record.confirmed = min (s.role.record.confirmed + 1) 65535 ∧
      (s.applyStatus serial r .accept).count .releasedUnconfirmed = s.count .releasedUnconfirmed := by
  obtain ⟨v, m', l', heq, ha, hself, -, hed, hl', hch⟩ := applyStatus_completes (serial := serial) he hl hi hc
  have hdrift : (e.withLive d m' l').anyDrift = false := anyDrift_of_same (hsame.imp_right fun ⟨x, y, hx, hy, hz⟩ =>
    ⟨x, hx, hed.trans (takeSnapshot_edges hy hz)⟩)
  obtain ⟨h1, h2, h3, h4⟩ := clearMark_clears .confirmed hself hl'
  rw [heq, hdrift, if_neg Bool.false_ne_true]
  refine ⟨⟨h1, by rw [h2, ha.role], by rw [h3, ha.park, hch]⟩, ?_, ?_⟩
  · rw [h4, ← ha.role]
    rfl
  · rw [← ha.counts _ (by decide) (by decide) (by decide)]
    simp only [State.count, clearMark_confirmed_counters]

/-- R156: with drift left the mark stays, and a REFRESH is queued in URGENT. -/
theorem applyStatus_refreshes {i : Inflight} (he : s.entry? r.handle = some (e.withLive d m l)) (hl : l.marked = true)
    (hi : m.inflight = some i) (hc : Completes r i.note m)
    (hother : ∃ x y z, e.tcp = some x ∧ m.edges = some y ∧ r.edges = some z ∧ z ≠ x.snapshot) :
    (s.applyStatus serial r .accept).isMarked r.handle = true ∧
      (s.applyStatus serial r .accept).queuedOf r.handle = some .refresh ∧
      (s.applyStatus serial r .accept).laneOf r.handle = some .urgent ∧
      (s.applyStatus serial r .accept).role = s.role ∧ (s.applyStatus serial r .accept).park = s.park := by
  obtain ⟨v, m', l', heq, ha, hself, hq, hed, hl', -⟩ := applyStatus_completes (serial := serial) he hl hi hc
  obtain ⟨x, y, z, hx, hy, hz, hne⟩ := hother
  have hdrift : (e.withLive d m' l').anyDrift = true := anyDrift_of_other hx (hed.trans (takeSnapshot_edges hy hz)) hne
  have hneed := raiseNeed_live .refresh hself (fun _ => hq)
  have hlanes := raiseNeed_lanes v r.handle .refresh
  rw [heq, if_pos hdrift, isMarked_of_live hneed, queuedOf_of_live hneed, laneOf_of_live hneed, hlanes.role, hlanes.park]
  exact ⟨hl', by rw [hq]; rfl, by simp [needLane, hl'], ha.role, ha.park⟩

/-- R156: a refused DECLARE leaves the entry unprotected, and its mark is cleared as released unconfirmed. -/
theorem applyStatus_releases {i : Inflight} (he : s.entry? r.handle = some (e.withLive d m l)) (hl : l.marked = true)
    (hi : m.inflight = some i) (hk : r.kind = .declare) (hst : st ≠ .accept) (hn : i.note ≠ .owned) :
    ClearsMark s (s.applyStatus serial r st) r.handle l.chain ∧
      (s.applyStatus serial r st).role.record.released = min (s.role.record.released + 1) 65535 ∧
      (s.applyStatus serial r st).count .releasedUnconfirmed = min (s.count .releasedUnconfirmed + 1) 4294967295 := by
  have hin := clearInflight_live he
  have hself := settleWalkOf_self (declareRefused_self (st := st) (serial := serial) hin)
  have ha : Acks s (((s.clearInflight r.handle).declareRefused r st serial).settleWalkOf r) :=
    ((acks_of_lanes (clearInflight_lanes s _)).trans (declareRefused_acks hin)).trans (acks_of_lanes (settleWalkOf_lanes _ r))
  obtain ⟨h1, h2, h3, h4⟩ := clearMark_clears .released hself hl
  rw [applyStatus_of_live he hi, settleRecord_refused hk hst hn, offerMark_of_marked hself hl, if_pos ⟨hk, hst, hn⟩]
  refine ⟨⟨h1, by rw [h2, ha.role], by rw [h3, ha.park]⟩, ?_, ?_⟩
  · rw [h4, ← ha.role]
    rfl
  · rw [clearMark_released_count ((isMarked_of_live hself).trans hl), ha.counts _ (by decide) (by decide) (by decide)]

/-- R156: a refused REFRESH that leaves drift neither clears the mark nor makes a need. -/
theorem applyStatus_keeps {i : Inflight} (he : s.entry? r.handle = some (e.withLive d m l)) (hl : l.marked = true)
    (hi : m.inflight = some i) (hk : r.kind = .refresh) (hst : st ≠ .accept) (hdrift : (e.withLive d m l).anyDrift = true) :
    (s.applyStatus serial r st).isMarked r.handle = true ∧ (s.applyStatus serial r st).queuedOf r.handle = m.queued ∧
      (s.applyStatus serial r st).role = s.role ∧ (s.applyStatus serial r st).park = s.park := by
  let v := (s.clearInflight r.handle).inc .recordsRefused
  have hself : v.entry? r.handle = some (e.withLive d { m with inflight := none } l) := clearInflight_live he
  have ha : Acks s v := (acks_of_lanes (clearInflight_lanes s _)).trans (inc_acks _ (.inr rfl))
  have hkept : v.offerMark r i.note st = v := by
    rw [offerMark_of_marked hself hl, if_neg (by simp [hk])]
    split
    · exact if_pos hdrift
    · rfl
  rw [applyStatus_of_live he hi, settleRecord_refresh_refused hk hst, hkept, isMarked_of_live hself, queuedOf_of_live hself]
  exact ⟨hl, rfl, ha.role, ha.park⟩

/-- Settles O31: what a record's status makes of its entry, by the kind and the note, and then the test of a mark. -/
theorem declareRecordIsSettledByItsNote : Obligations.DeclareRecordIsSettledByItsNote := by
  have hlive : ∀ {s : State} {h : Nat} {e : Entry} {d : Declared} {m : MirrorPart} {l : LivePart}, s.entry? h = some e →
      e.body = .live d m l → s.entry? h = some (e.withLive d m l) := fun he hb => he.trans (congrArg some (eq_withLive hb))
  refine ⟨fun s serial r st e d m l i hk he hb hl hi => declareSettled hk (hlive he hb) hl hi,
    fun s serial r st e d m l i hk he hb hl hi => refreshSettled hk (hlive he hb) hl hi,
    fun s serial r st e d m l i he hb hl hi => ⟨?_, ?_, fun hk hst hn => ?_, fun hk hst hdrift => ?_⟩⟩
  · rintro ⟨rfl, hc⟩ hsame
    exact applyStatus_confirms (hlive he hb) hl hi hc hsame
  · rintro ⟨rfl, hc⟩ hother
    exact applyStatus_refreshes (hlive he hb) hl hi hc hother
  · exact applyStatus_releases (hlive he hb) hl hi hk hst hn
  · exact applyStatus_keeps (hlive he hb) hl hi hk hst (eq_withLive hb ▸ hdrift)

end Sys2Proof.MirrorChannel

/-! The records of a batch (R96, R97, R191): their sizes, which queued entries are eligible, and which are picked. -/

namespace Sys2Proof.MirrorChannel

open Sys2Proof Sys2Proof.Machine Sys2Proof.Laws Sys2Proof.SessionTable Sys2Proof.SessionDeclarations Sys2Proof.FramePath

variable {s t u : State}

/-! ## The size of a record (R97, R191) -/

theorem length_edgeBytes (x : Option Seq32) : (edgeBytes x).length = 4 := by
  cases x <;> simp [edgeBytes, length_beBytes]

theorem length_edgeBlock (x : Option Tracking) : (edgeBlock x).length = 24 := by
  cases x <;> simp [edgeBlock, length_edgeBytes]

theorem length_syncHead (k : RecKind) (walk byB : Bool) (valid : List Bool) (h : Nat) :
    (syncHead k walk byB valid h).length = 4 := by
  simp [syncHead, be1, be2, length_beBytes]

/-- R97: a record's bytes are as many as its size says. -/
theorem length_syncRecord (h : Nat) (e : Entry) (d : Declared) (m : MirrorPart) (k : RecKind) :
    (syncRecord h e d m k).length = recordSize e d k := by
  cases k with
  | declare =>
    have hedges : (if e.tcp.isSome then edgeBlock e.tcp else []).length = if e.tcp.isSome then 24 else 0 := by
      split
      · exact length_edgeBlock _
      · rfl
    simp only [syncRecord, List.length_append, length_syncHead, length_declPart, hedges, recordSize]
  | refresh => simp [syncRecord, recordSize, length_syncHead, length_edgeBlock]
  | retire => exact length_syncHead _ _ _ _ _

theorem declFixed_eq (fam : Family) : fam.declFixed = if fam = .v4 then 36 else 84 := by cases fam <;> rfl

theorem recordSize_le {e : Entry} {d : Declared} (hd : d.blob.length ≤ 64) (k : RecKind) : recordSize e d k ≤ 176 := by
  cases k with
  | declare =>
    have htcp : (if e.tcp.isSome then 24 else 0) ≤ 24 := by split <;> decide
    have hfix : e.family.declFixed ≤ 84 := by rw [declFixed_eq]; split <;> decide
    simp only [recordSize]
    omega
  | refresh => exact (by decide : 28 ≤ 176)
  | retire => exact (by decide : 4 ≤ 176)

theorem owedBytes_of_queued {h : Nat} {e : Entry} {d : Declared} {k : RecKind} (he : s.entry? h = some e)
    (hd : e.declared? = some d) (hq : s.queuedOf h = some k) : (s.owedBytes h).length = recordSize e d k := by
  rw [State.queuedOf, he, Option.bind_some, Option.bind_eq_some_iff] at hq
  obtain ⟨m, hm, hq⟩ := hq
  simp only [State.owedBytes, he, hd, hm, hq, length_syncRecord]

theorem length_owedBytes (s : State) (h : Nat) : (s.owedBytes h).length = s.owedSize h := by
  unfold State.owedBytes State.owedSize
  cases s.entry? h with
  | none => rfl
  | some e =>
    dsimp only
    cases e.declared? with
    | none => rfl
    | some d =>
      cases e.mirror? with
      | none => rfl
      | some m =>
        cases hq : m.queued with
        | none => simp [hq]
        | some k => simp [hq, length_syncRecord]

theorem length_owedRecords (s : State) (hs : List Nat) : (hs.map s.owedBytes).flatten.length = (hs.map s.owedSize).sum := by
  simp [List.length_flatten, Function.comp_def, length_owedBytes]

theorem owedSize_le {h : Nat} (hb : ∀ e d, s.entry? h = some e → e.declared? = some d → d.blob.length ≤ 64) :
    s.owedSize h ≤ 176 := by
  unfold State.owedSize
  cases he : s.entry? h with
  | none => exact Nat.zero_le _
  | some e =>
    dsimp only
    split
    · rename_i d k hd _
      exact recordSize_le (hb e d he hd) k
    · exact Nat.zero_le _

/-! ## Eligible entries (R96) -/

theorem eligible_of_entry {h : Nat} {e : Entry} {m : MirrorPart} (he : s.entry? h = some e) (hm : e.mirror? = some m) :
    s.eligible h = true ↔ m.queued ≠ none ∧ m.inflight = none ∧ e.waits = 0 ∧
      (s.role.phase ≠ .settle ∨ e.marked = true ∨ ∃ g ∈ e.blocks, s.isMarked g = true) := by
  simp only [State.eligible, he, hm, State.blocksMarked, Bool.and_eq_true, Bool.or_eq_true, Option.isSome_iff_ne_none,
    Option.isNone_iff_eq_none, beq_iff_eq, bne_iff_ne, List.any_eq_true, and_assoc, or_assoc]

/-! ## The entries picked (R97) -/

/-- R97: the next entry is past the record limit, or past the payload. -/
def Overfills (s : State) (limit : Nat) (n bytes h : Nat) : Prop := ¬ (n < limit ∧ bytes + s.owedSize h ≤ Config.syncPayload)

theorem fill_cons_ineligible {limit h n bytes : Nat} {hs : List Nat} (he : s.eligible h = false) :
    s.fill limit (h :: hs) n bytes = s.fill limit hs n bytes := by simp [State.fill, he]

theorem fill_cons_taken {limit h n bytes : Nat} {hs : List Nat} (he : s.eligible h = true)
    (hfit : ¬ Overfills s limit n bytes h) :
    s.fill limit (h :: hs) n bytes = h :: s.fill limit hs (n + 1) (bytes + s.owedSize h) := by
  simp [State.fill, he, not_not.mp hfit]

theorem fill_cons_stops {limit h n bytes : Nat} {hs : List Nat} (he : s.eligible h = true)
    (hover : Overfills s limit n bytes h) : s.fill limit (h :: hs) n bytes = [] := by
  rw [State.fill, if_pos he, if_neg hover]

/-- R97: what is picked stays within the record limit and the payload. -/
theorem fill_bounds {limit n bytes : Nat} (hs : List Nat) (hn : n ≤ limit) (hb : bytes ≤ Config.syncPayload) :
    n + (s.fill limit hs n bytes).length ≤ limit ∧
      bytes + ((s.fill limit hs n bytes).map s.owedSize).sum ≤ Config.syncPayload := by
  induction hs generalizing n bytes with
  | nil => exact ⟨hn, hb⟩
  | cons h hs ih =>
    cases he : s.eligible h with
    | false => rw [fill_cons_ineligible he]; exact ih hn hb
    | true =>
      by_cases hover : Overfills s limit n bytes h
      · rw [fill_cons_stops he hover]; exact ⟨hn, hb⟩
      · obtain ⟨h1, h2⟩ := not_not.mp hover
        obtain ⟨k1, k2⟩ := ih (Nat.succ_le_of_lt h1) h2
        rw [Nat.succ_eq_add_one] at k1 k2
        rw [fill_cons_taken he hover, List.length_cons, List.map_cons, List.sum_cons]
        exact ⟨by omega, by omega⟩

/-- R97: what is picked are the eligible entries up to a stop, at which none is left or the next one overfills the batch. -/
theorem fill_stops {limit : Nat} (hs : List Nat) (n bytes : Nat) : ∃ front back, hs = front ++ back ∧
    s.fill limit hs n bytes = front.filter s.eligible ∧ ((∀ h ∈ back, s.eligible h = false) ∨
      ∃ h more, back = h :: more ∧ s.eligible h = true ∧ Overfills s limit (n + (s.fill limit hs n bytes).length)
        (bytes + ((s.fill limit hs n bytes).map s.owedSize).sum) h) := by
  induction hs generalizing n bytes with
  | nil => exact ⟨[], [], rfl, rfl, .inl (by simp)⟩
  | cons h hs ih =>
    cases he : s.eligible h with
    | false =>
      obtain ⟨front, back, h1, h2, h3⟩ := ih n bytes
      rw [fill_cons_ineligible he]
      exact ⟨h :: front, back, by rw [h1]; rfl, by simp [he, h2], h3⟩
    | true =>
      by_cases hover : Overfills s limit n bytes h
      · rw [fill_cons_stops he hover]
        exact ⟨[], h :: hs, rfl, rfl, .inr ⟨h, hs, rfl, he, hover⟩⟩
      · obtain ⟨front, back, h1, h2, h3⟩ := ih (n + 1) (bytes + s.owedSize h)
        rw [fill_cons_taken he hover]
        refine ⟨h :: front, back, by rw [h1]; rfl, by simp [he, h2], h3.imp_right ?_⟩
        rintro ⟨g, more, hg, hge, hgo⟩
        refine ⟨g, more, hg, hge, ?_⟩
        rwa [List.length_cons, List.map_cons, List.sum_cons, ← Nat.add_assoc, Nat.add_right_comm, ← Nat.add_assoc]

/-- R97: the entries picked, from the heads of the lanes up to the stop. -/
theorem pick_stops (s : State) : ∃ front back, s.mirror.urgent ++ s.mirror.normal = front ++ back ∧
    s.pick = front.filter s.eligible ∧ ((∀ h ∈ back, s.eligible h = false) ∨ ∃ h more, back = h :: more ∧
      s.eligible h = true ∧ Overfills s (s.param .recordLimit) s.pick.length (s.pick.map s.owedSize).sum h) := by
  have h := fill_stops (s := s) (limit := s.param .recordLimit) (s.mirror.urgent ++ s.mirror.normal) 0 0
  simp only [Nat.zero_add] at h
  exact h

theorem pick_bounds (s : State) : s.pick.length ≤ s.param .recordLimit ∧ (s.pick.map s.owedSize).sum ≤ 1440 := by
  have h := fill_bounds (s := s) (s.mirror.urgent ++ s.mirror.normal) (Nat.zero_le (s.param .recordLimit)) (Nat.zero_le _)
  simp only [Nat.zero_add] at h
  exact h

theorem mem_pick {h : Nat} (hh : h ∈ s.pick) : h ∈ s.mirror.urgent ++ s.mirror.normal ∧ s.eligible h = true := by
  obtain ⟨front, back, h1, h2, -⟩ := pick_stops s
  rw [h2, List.mem_filter] at hh
  exact ⟨h1 ▸ List.mem_append_left back hh.1, hh.2⟩

/-- Settles O29: the induction over the lanes is that of `fill_stops` and `fill_bounds`. -/
theorem pickedBatchFitsItsFrame : Obligations.PickedBatchFitsItsFrame := by
  intro s
  obtain ⟨front, back, hlanes, hpick, hstop⟩ := pick_stops s
  obtain ⟨hlimit, hbytes⟩ := pick_bounds s
  refine ⟨fun h hh => mem_pick hh, hlimit, by rwa [length_owedRecords], fun h e d k he hd hq => ?_, ?_, ?_,
    fun hblob hone hsome hnil => ?_, fun h e m he hm => eligible_of_entry he hm⟩
  · rw [owedBytes_of_queued he hd hq]
    cases k with
    | declare => cases hf : e.family <;> simp [recordSize, hf, declFixed_eq]
    | refresh => rfl
    | retire => rfl
  · rw [hlanes, hpick]
    exact List.filter_sublist.trans (List.sublist_append_left front back)
  · refine ⟨front, back, hlanes, hpick, hstop.imp_right ?_⟩
    rintro ⟨h, more, hb, he, hover⟩
    refine ⟨h, more, hb, he, ?_⟩
    rw [length_owedRecords, length_owedBytes]
    simp only [Overfills, Config.syncPayload] at hover
    omega
  · rw [hnil] at hstop hpick
    rcases hstop with hnone | ⟨h, more, -, -, hover⟩
    · obtain ⟨h, hh, he⟩ := hsome
      rw [hlanes, List.mem_append] at hh
      rcases hh with hh | hh
      · have hmem : h ∈ front.filter s.eligible := List.mem_filter.mpr ⟨hh, he⟩
        rw [← hpick] at hmem
        cases hmem
      · rw [hnone h hh] at he
        cases he
    · have hsize : s.owedSize h ≤ 176 := owedSize_le fun e d => hblob h e d
      simp only [Overfills, Config.syncPayload, List.length_nil, List.map_nil, List.sum_nil] at hover
      omega

end Sys2Proof.MirrorChannel

/-! PACK_BATCH (R96 to R100): the entries picked leave their lanes, and the batch takes its slot and its SYNC its queue. -/

namespace Sys2Proof.MirrorChannel

open Sys2Proof Sys2Proof.Machine Sys2Proof.Laws Sys2Proof.SessionTable Sys2Proof.SessionDeclarations Sys2Proof.FramePath

variable {s t u : State}

/-! ## Entries taken into a batch (R98) -/

/-- R98: the Mirror Engine's fields of an entry whose record a batch carries. -/
def takenPart (serial : Word16) (m : MirrorPart) : MirrorPart :=
  { m with lane := none, queued := none, inflight := some { serial := serial, note := .clean } }

/-- R98: the entries of a list taken into a batch. -/
def taken (s : State) (serial : Word16) (hs : List Nat) : State := hs.foldl (State.takeInto serial) s

theorem mapMirror_mapMirror (e : Entry) (f g : MirrorPart → MirrorPart) :
    (e.mapMirror f).mapMirror g = e.mapMirror (fun m => g (f m)) := by
  obtain ⟨fam, pr, o, i, c, n, x, b⟩ := e
  cases b <;> rfl

theorem takeInto_lanes (serial : Word16) (s : State) (h : Nat) : Lanes s (s.takeInto serial h) :=
  (unqueue_lanes s h).trans (modifyEntry_lanes _ h _)

theorem takeInto_entry? (serial : Word16) (s : State) (h g : Nat) : (s.takeInto serial h).entry? g =
    if g = h then (s.entry? g).map (·.mapMirror (takenPart serial)) else s.entry? g := by
  by_cases hg : g = h
  · subst hg
    rw [if_pos rfl, State.takeInto, modifyEntry_self, unqueue_self, Option.map_map]
    exact Option.map_congr fun e _ => mapMirror_mapMirror e _ _
  · rw [if_neg hg]
    exact othersKept_trans (unqueue_others s h) (modifyEntry_others _ h _) g hg

theorem takeInto_mirror (serial : Word16) (s : State) (h : Nat) : (s.takeInto serial h).mirror = s.mirror.outOfLanes h := by
  rw [State.takeInto, modifyEntry_mirror, State.unqueue, modifyEntry_mirror]

theorem taken_lanes (s : State) (serial : Word16) (hs : List Nat) : Lanes s (taken s serial hs) :=
  .foldl (takeInto_lanes serial) hs s

theorem taken_cons (s : State) (serial : Word16) (h : Nat) (hs : List Nat) :
    taken s serial (h :: hs) = taken (s.takeInto serial h) serial hs := rfl

theorem taken_of_not_mem {g : Nat} {hs : List Nat} (serial : Word16) (hg : g ∉ hs) :
    (taken s serial hs).entry? g = s.entry? g := by
  induction hs generalizing s with
  | nil => rfl
  | cons h hs ih =>
    obtain ⟨hne, hg⟩ := List.ne_and_not_mem_of_not_mem_cons hg
    rw [taken_cons, ih hg, takeInto_entry?, if_neg hne]

/-- R98: an entry that the list names, once or more than once. -/
theorem taken_of_mem {g : Nat} {hs : List Nat} (serial : Word16) (hg : g ∈ hs) :
    (taken s serial hs).entry? g = (s.entry? g).map (·.mapMirror (takenPart serial)) := by
  induction hs generalizing s with
  | nil => cases hg
  | cons h hs ih =>
    rw [taken_cons]
    by_cases hmem : g ∈ hs
    · rw [ih hmem, takeInto_entry?]
      split
      · rw [Option.map_map]
        exact Option.map_congr fun e _ => mapMirror_mapMirror e _ _
      · rfl
    · have hgh : g = h := (List.mem_cons.mp hg).resolve_right hmem
      rw [taken_of_not_mem serial hmem, takeInto_entry?, if_pos hgh]

/-- R98: an entry that the list names stands in no lane. -/
theorem taken_unqueued {g : Nat} {hs : List Nat} (serial : Word16) (hg : g ∈ hs) :
    g ∉ (taken s serial hs).mirror.urgent ∧ g ∉ (taken s serial hs).mirror.normal := by
  have keeps : ∀ (ks : List Nat) (v : State), g ∉ v.mirror.urgent → g ∉ v.mirror.normal →
      g ∉ (taken v serial ks).mirror.urgent ∧ g ∉ (taken v serial ks).mirror.normal := by
    intro ks
    induction ks with
    | nil => exact fun v hu hn => ⟨hu, hn⟩
    | cons k ks ih =>
      refine fun v hu hn => ih _ ?_ ?_ <;> rw [takeInto_mirror]
      · exact fun hm => hu (List.mem_filter.mp hm).1
      · exact fun hm => hn (List.mem_filter.mp hm).1
  induction hs generalizing s with
  | nil => cases hg
  | cons h hs ih =>
    rw [taken_cons]
    rcases List.mem_cons.mp hg with rfl | hg
    · refine keeps hs _ ?_ ?_ <;> simp [takeInto_mirror, Mirror.outOfLanes]
    · exact ih hg

/-! ## The batch (R96, R99, R100) -/

/-- R99, R133: a batch sent to a target whose IN port has room. -/
theorem sendBatch_of_room {f : Fw} (ht : s.mirror.target = some f) (hr : s.hasRoom f.inPort 1) (begin : Bool)
    (recs : List BatchRecord) (payload : List Byte) : s.sendBatch begin recs payload =
      (State.inc { s with mirror := withBatch s begin recs } .batchesSent).queued f.inPort
        (ccfFrame (s.fw f).learned s.unitAddress .sync (if begin then 1#8 else 0#8) (BitVec.ofNat 8 recs.length) s.nextSerial
          payload) := by
  have hc : (State.inc { s with mirror := withBatch s begin recs } .batchesSent).canHand f.inPort = true := canHand_of_hasRoom hr
  unfold State.sendBatch
  dsimp only
  split
  · rename_i g hg
    obtain rfl : g = f := Option.some.inj (hg.symm.trans ht)
    exact handTx_of_canHand hc
  · rename_i hg
    exact absurd (hg.symm.trans ht) nofun

theorem packReady_of (hm : s.mirror.state = .walking ∨ s.mirror.state = .streaming ∨ s.mirror.state = .pushing)
    (hb : s.mirror.beginPending = false) (hs : s.mirror.slots.length < s.param .batchWindow)
    (he : ∃ h ∈ s.mirror.urgent ++ s.mirror.normal, s.eligible h = true) : s.packReady = true := by
  have hstate : (s.mirror.state == .walking || s.mirror.state == .streaming || s.mirror.state == .pushing) = true := by
    rcases hm with h | h | h <;> rw [h] <;> rfl
  simp only [State.packReady, hstate, hb, hs, List.any_eq_true.mpr he, decide_true, Bool.not_false, Bool.and_self]

theorem entry_of_eligible {h : Nat} (he : s.eligible h = true) : ∃ e m, s.entry? h = some e ∧ e.mirror? = some m := by
  unfold State.eligible at he
  split at he
  · cases he
  · split at he
    · cases he
    · exact ⟨_, _, by assumption, by assumption⟩

/-- R98: an eligible entry has its record. -/
theorem batchRecord_of_eligible {h : Nat} (he : s.eligible h = true) : ∃ r, s.batchRecord h = some r ∧ r.handle = h := by
  obtain ⟨e, m, hx, hm⟩ := entry_of_eligible he
  obtain ⟨k, hk⟩ := Option.ne_none_iff_exists'.mp ((eligible_of_entry hx hm).mp he).1
  simp [State.batchRecord, hx, hm, hk]

/-- R100: the records of a batch are those of the entries named, in their order. -/
theorem handles_of_records {hs : List Nat} (he : ∀ h ∈ hs, s.eligible h = true) :
    (hs.filterMap s.batchRecord).map (·.handle) = hs := by
  induction hs with
  | nil => rfl
  | cons h hs ih =>
    obtain ⟨r, hr, hh⟩ := batchRecord_of_eligible (he h List.mem_cons_self)
    rw [List.filterMap_cons_some hr, List.map_cons, hh, ih fun g hg => he g (List.mem_cons_of_mem h hg)]

theorem taken_nextSerial (s : State) (serial : Word16) (hs : List Nat) : (taken s serial hs).nextSerial = s.nextSerial := by
  have hnext : (taken s serial hs).mirror.nextSerial = s.mirror.nextSerial := by rw [(taken_lanes s serial hs).mirror]
  rw [State.nextSerial, hnext, (taken_lanes s serial hs).works.batches]
  rfl

/-- R100: the records of the batch that is packed. -/
def packedRecords (s : State) : List BatchRecord := s.pick.filterMap s.batchRecord

/-- R96 to R99: the batch sent from the state that the entries picked have left their lanes in. -/
theorem packBatch_of_ready (h : s.packReady = true) : s.packBatch =
    (taken s s.nextSerial s.pick).sendBatch false (packedRecords s) (s.pick.map s.owedBytes).flatten := if_pos h

/-- Settles O28: PACK_BATCH takes the entries picked out of their lanes and sends their one batch. -/
theorem packingFormsOneBatch : Obligations.PackingFormsOneBatch := by
  intro s f ht hm hb hs he hr
  let v := taken s s.nextSerial s.pick
  have k : Lanes s v := taken_lanes s _ _
  have hvt : v.mirror.target = some f := k.works.target.trans ht
  have hvr : v.hasRoom f.inPort 1 := hasRoom_congr (k.port _) hr
  have hserial : v.nextSerial = s.nextSerial := taken_nextSerial s _ _
  have hsent := sendBatch_of_room hvt hvr false (packedRecords s) (s.pick.map s.owedBytes).flatten
  have hrecs : (packedRecords s).map (·.handle) = s.pick := handles_of_records fun h hh => (mem_pick hh).2
  refine ⟨_, { serial := s.nextSerial, age := 0, begin := false, records := packedRecords s },
    congrArg Host.Outcome.next ((packBatch_of_ready (packReady_of hm hb hs he)).trans hsent), ?_, rfl, rfl, rfl, hrecs, ?_,
    fun h hh => ?_, fun h hh => taken_of_not_mem _ hh, ?_, k.role, ?_, fun c hc => ?_⟩
  · change (withBatch v false (packedRecords s)).slots = _
    rw [withBatch, hserial, k.works.batches]
  · change (withBatch v false (packedRecords s)).nextSerial = _
    rw [withBatch, hserial]
  · obtain ⟨hu, hn⟩ := taken_unqueued (s := s) s.nextSerial hh
    have hself : v.entry? h = (s.entry? h).map (·.mapMirror (takenPart s.nextSerial)) := taken_of_mem _ hh
    obtain ⟨e, m, hx, hm⟩ := entry_of_eligible (mem_pick hh).2
    have hpart : (v.entry? h).bind Entry.mirror? = some (takenPart s.nextSerial m) := by
      rw [hself, hx, Option.map_some, Option.bind_some, mirror?_mapMirror, hm]
      rfl
    have hof : ∀ {α : Type} (g : MirrorPart → Option α), ((v.entry? h).bind fun e => e.mirror?.bind g) =
        ((v.entry? h).bind Entry.mirror?).bind g := fun g => (Option.bind_assoc _ _ _).symm
    exact ⟨(hof (·.lane)).trans (by rw [hpart]; rfl), (hof (·.queued)).trans (by rw [hpart]; rfl), hu, hn,
      congrArg (fun x : Option MirrorPart => x.bind MirrorPart.inflight) hpart⟩
  · change (v.queued f.inPort (ccfFrame (v.fw f).learned v.unitAddress .sync 0#8 _ v.nextSerial _)).ports = _
    rw [hserial]
    simp only [State.queued, setPort_ports, State.port, State.fw, State.unitAddress, State.param, k.ports, k.works.health,
      k.works.params]
  · exact (count_inc _ _ _).trans ((if_pos rfl).trans (congrArg (fun n => min (n + 1) 4294967295) (k.count _)))
  · exact (count_inc _ _ _).trans ((if_neg hc).trans (k.count c))

end Sys2Proof.MirrorChannel

/-! A SYNC-ACK (R102, R105, R116): its batch found by serial, its statuses applied in order, and what the empty one does. -/

namespace Sys2Proof.MirrorChannel

open Sys2Proof Sys2Proof.Machine Sys2Proof.Laws Sys2Proof.SessionTable Sys2Proof.SessionDeclarations Sys2Proof.FramePath

variable {s t u : State} {f : Fw} {fr : Frame} {b : Batch} {before after rest : List Batch} {serial : Word16}

/-- R186: a SYNC-ACK of the mirror target is taken. -/
theorem exec_syncAck (hg : goodCcf .syncAck fr = true) (ht : s.mirror.target = some f) :
    exec (.syncAck f.inPort fr) s = .next ((s.inc (.framesIn f.inPort)).syncAckFrom (readCcf fr)) := by
  refine congrArg Host.Outcome.next (receive_goodCcf hg ?_)
  simp [State.takenAt, ht]

/-- R102: the statuses that a SYNC-ACK carries, in its record count. -/
def ackStatuses (c : Ccf) : List Byte := c.payload.take c.records

theorem syncAckFrom_eq (s : State) (c : Ccf) :
    s.syncAckFrom c = s.asEvent (fun v => (v.syncAck c.seq (ackStatuses c)).finish) := rfl

/-! ## The batch of the serial (R102) -/

/-- R102, R107: the slot of a batch emptied by its SYNC-ACK, no status applied yet. -/
def acked (s : State) (b : Batch) (rest : List Batch) : State :=
  { s with mirror := { s.mirror with slots := rest, timeouts := 0, beginPending := s.mirror.beginPending && !b.begin } }

theorem syncAck_of_stray (h : ∀ b ∈ s.mirror.slots, b.serial ≠ serial) (bs : List Byte) :
    s.syncAck serial bs = s.inc .strayAck := by
  have hnone : s.mirror.slots.find? (fun b => b.serial == serial) = none :=
    List.find?_eq_none.mpr fun b hb => by simp [h b hb]
  simp only [State.syncAck, hnone]

theorem syncAck_of_slot (hs : s.mirror.slots = before ++ b :: after) (hb : b.serial = serial)
    (ho : ∀ x ∈ before ++ after, x.serial ≠ b.serial) (bs : List Byte) :
    s.syncAck serial bs = State.applyStatuses serial (acked s b (before ++ after)) b.records bs := by
  subst hb
  have hne : ∀ x ∈ before ++ after, (x.serial != b.serial) = true := fun x hx => bne_iff_ne.mpr (ho x hx)
  have hbefore : before.find? (fun x => x.serial == b.serial) = none :=
    List.find?_eq_none.mpr fun x hx => by simpa using ho x (List.mem_append_left _ hx)
  have hfind : s.mirror.slots.find? (fun x => x.serial == b.serial) = some b := by simp [hs, List.find?_append, hbefore]
  have hfilter : s.mirror.slots.filter (fun x => x.serial != b.serial) = before ++ after := by
    rw [hs, List.filter_append, List.filter_cons_of_neg (by simp), ← List.filter_append, List.filter_eq_self.mpr hne]
  have hbegin : (if b.begin then false else s.mirror.beginPending) = (s.mirror.beginPending && !b.begin) := by
    cases b.begin <;> simp
  simp only [State.syncAck, hfind, hfilter, hbegin]
  rfl

/-! ## The statuses, first to last (R102, R105) -/

theorem returnRecords_nil (s : State) : s.returnRecords [] = s := ite_self _

theorem applyStatuses_eq (serial : Word16) (recs : List BatchRecord) (bs : List Byte) (s : State) :
    State.applyStatuses serial s recs bs =
      ((recs.zip (bs.map statusOf)).foldl (fun (u : State) x => u.applyStatus serial x.1 x.2) s).returnRecords
        (recs.drop (bs.map statusOf).length) := by
  induction recs generalizing bs s with
  | nil => simp [State.applyStatuses, returnRecords_nil]
  | cons r recs ih =>
    cases bs with
    | nil => rfl
    | cons x bs => simpa [State.applyStatuses] using ih bs (s.applyStatus serial r (statusOf x))

theorem applyStatuses_nil (serial : Word16) (s : State) (recs : List BatchRecord) :
    State.applyStatuses serial s recs [] = s.returnRecords recs := by
  rw [applyStatuses_eq]
  simp

theorem applyStatuses_noRecords (serial : Word16) (s : State) (bs : List Byte) :
    State.applyStatuses serial s [] bs = s := by
  simp [State.applyStatuses]

/-! ## What ends its event -/

theorem asEvent_congr {g k : State → State} (h : g s = k s) : s.asEvent g = s.asEvent k := by
  simp only [State.asEvent, h]

theorem syncAckFrom_of_stray {c : Ccf} (hq : s.quiet) (hno : ∀ b ∈ s.mirror.slots, b.serial ≠ c.seq) :
    s.syncAckFrom c = s.inc .strayAck := by
  have hstray := syncAck_of_stray hno (ackStatuses c)
  rw [syncAckFrom_eq, asEvent_finish_of_quiet, hstray]
  · rw [hstray]; exact hq.1
  · exact hq.2
  · rw [hstray]; rfl
  · rw [hstray]; rfl

/-- R102: the outstanding batch `b` is the one of the serial, between `before` and `after`. -/
structure AtSlot (s : State) (serial : Word16) (before : List Batch) (b : Batch) (after : List Batch) : Prop where
  slots : s.mirror.slots = before ++ b :: after
  serial : b.serial = serial
  others : ∀ x ∈ before ++ after, x.serial ≠ b.serial

theorem syncAckFrom_of_slot {c : Ccf} (h : AtSlot s c.seq before b after) : s.syncAckFrom c = s.asEvent (fun v =>
    (State.applyStatuses c.seq (acked v b (before ++ after)) b.records (ackStatuses c)).finish) :=
  (syncAckFrom_eq s c).trans (asEvent_congr (congrArg State.finish (syncAck_of_slot h.slots h.serial h.others _)))

/-- R105: the SYNC-ACK of a BEGIN-WALK batch, which holds no record. -/
theorem syncAckFrom_of_begin {c : Ccf} (h : AtSlot s c.seq [] b rest) (hrecs : b.records = []) :
    s.syncAckFrom c = s.asEvent (fun v => (acked v b rest).finish) :=
  (syncAckFrom_of_slot h).trans (by rw [hrecs]; simp only [applyStatuses_noRecords, List.nil_append])

theorem acked_of_begin (hb : b.begin = true) : acked s b rest =
    { s with mirror := { s.mirror with slots := rest, timeouts := 0, beginPending := false } } := by
  simp [acked, hb]

/-- R105: the walk goes on after its BEGIN-WALK batch is confirmed. -/
theorem asEvent_acked_walking (hp : s.role.phase ≠ .settle) (hc : s.mirror.cursor < 16384) :
    s.asEvent (fun v => (acked v b rest).finish) = acked s b rest := by
  have hwalk : (acked s b rest).walkDone = false := by simp [State.walkDone, acked, Config.handles, hc.ne]
  have hfin : (acked s b rest).finish = acked s b rest := finish_of_undone (settleDone_of_phase hp) hwalk
  rw [asEvent_unmoved] <;> rw [hfin] <;> rfl

/-- R116: a walk with no handle to examine and no record of its own left. -/
structure WalkOver (s : State) : Prop where
  state : s.mirror.state = .walking
  cursor : s.mirror.cursor = 16384
  pending : s.mirror.walkPending = 0

/-- R116, R148: the walk whose BEGIN-WALK batch was the last outstanding ends, with nothing to pre-empt for. -/
theorem finish_acked_of_walkOver (hp : s.role.phase ≠ .settle) (hw : WalkOver s) (hb : b.begin = true)
    (hpre : s.param .preemptPreferred = 0) (hd : s.role.dwell ≠ .complete) :
    (acked s b rest).finish = walkEnded (acked s b rest) := by
  have hdone : (acked s b rest).walkDone = true := by
    simp [State.walkDone, acked, hw.state, hw.cursor, hw.pending, hb, Config.handles]
  have k := walkEnded_sends (acked s b rest)
  have hrole : (walkEnded (acked s b rest)).role = s.role := k.role
  have hpref : (walkEnded (acked s b rest)).preferredStandby = false := by
    refine not_prefersOther fun ⟨hon, _⟩ => ?_
    have hkept : (walkEnded (acked s b rest)).param .preemptPreferred = s.param .preemptPreferred := by
      simp only [State.param, k.params]
      rfl
    omega
  have hend : (acked s b rest).endWalk = walkEnded (acked s b rest) :=
    preemptTest_of_not (s := walkEnded _) (.inr (.inr (.inr ⟨hpref, by rw [hrole]; exact hd⟩)))
  simp [State.finish, settleDone_of_phase (s := acked s b rest) hp, hdone, hend]

theorem asEvent_acked_of_walkOver (hp : s.role.phase ≠ .settle) (hw : WalkOver s) (hb : b.begin = true)
    (hpre : s.param .preemptPreferred = 0) (hd : s.role.dwell ≠ .complete) :
    s.asEvent (fun v => (acked v b rest).finish) = walkEnded (acked s b rest) := by
  have hfin := finish_acked_of_walkOver (rest := rest) hp hw hb hpre hd
  have k := walkEnded_sends (acked s b rest)
  rw [asEvent_unmoved] <;> rw [hfin]
  · rw [k.role]; rfl
  · rw [k.role]; rfl
  · rw [k.health]; rfl

/-- R102: a SYNC-ACK of no status has every record of its batch put back. -/
theorem syncAckFrom_of_noStatus {c : Ccf} (h : AtSlot s c.seq [] b rest) (hn : c.records = 0) (hm : s.mirror.state ≠ .walking)
    (hp : s.role.phase ≠ .settle) : s.syncAckFrom c = (acked s b rest).putBack b.records := by
  have hnone : ackStatuses c = [] := by rw [ackStatuses, hn, List.take_zero]
  have hback : State.applyStatuses c.seq (acked s b rest) b.records [] = (acked s b rest).putBack b.records :=
    (applyStatuses_nil _ _ _).trans (returnRecords_of_open (s := acked s b rest) hp _)
  have k := putBack_lanes (acked s b rest) b.records
  rw [syncAckFrom_of_slot h, hnone, List.nil_append, asEvent_finish_of_quiet, hback]
  · rw [hback, k.mirror]; exact hm
  · exact hp
  · rw [hback]; exact k.role
  · rw [hback]; exact k.works.health

/-- Settles O30: the slots split at the batch, its statuses by induction on its records, and the tests that end the event. -/
theorem syncAckIsMatchedByItsSerial : Obligations.SyncAckIsMatchedByItsSerial := by
  refine ⟨fun f fr s hg ht hq hno => ?_, fun f fr s b rest hg ht hp hs hb ho => ?_,
    fun f fr s before after b hg ht hs hb ho => ?_⟩ <;> rw [exec_syncAck hg ht]
  · exact congrArg Host.Outcome.next (syncAckFrom_of_stray (s := s.inc _) hq hno)
  · have hat : AtSlot (s.inc (.framesIn f.inPort)) (readCcf fr).seq [] b rest := ⟨hs, hb, ho⟩
    refine ⟨fun hc hbeg hrecs => congrArg Host.Outcome.next ?_, fun hm hc hw hbeg hrecs hpre hd => ⟨_, rfl, ?_⟩,
      fun hm _ hn hcan => ⟨_, rfl, ?_⟩⟩
    · rw [syncAckFrom_of_begin hat hrecs, asEvent_acked_walking (s := s.inc _) hp hc]
      exact acked_of_begin hbeg
    · have hev : ∀ ev, (walkEnded (acked (s.inc (.framesIn f.inPort)) b rest)).event ev =
          if ev = .walkDone then (s.event .walkDone).next else s.event ev := fun ev => raise_event _ _ _ _
      have k := walkEnded_sends (acked (s.inc (.framesIn f.inPort)) b rest)
      rw [syncAckFrom_of_begin hat hrecs, asEvent_acked_of_walkOver (s := s.inc _) hp ⟨hm, hc, hw⟩ hbeg hpre hd]
      refine ⟨?_, (hev _).trans (if_pos rfl), fun ev hne => (hev ev).trans (if_neg hne)⟩
      rw [acked_of_begin hbeg] at k ⊢
      exact k
    · have k := putBack_lanes (acked (s.inc (.framesIn f.inPort)) b rest) b.records
      have kmirror := k.mirror
      have hputs : s.putsBack ((acked (s.inc (.framesIn f.inPort)) b rest).putBack b.records) b.records :=
        putBack_putsBack (s := acked (s.inc (.framesIn f.inPort)) b rest) hcan
      rw [syncAckFrom_of_noStatus hat hn hm hp]
      exact ⟨hputs, by rw [kmirror]; rfl, by rw [kmirror]; rfl, by rw [kmirror]; rfl,
        ⟨(k.count _).trans ((count_inc _ _ _).trans (if_pos rfl)),
          fun c hc => (k.count c).trans ((count_inc _ _ _).trans (if_neg hc))⟩, k.role⟩
  · have hat : AtSlot (s.inc (.framesIn f.inPort)) (readCcf fr).seq before b after := ⟨hs, hb, ho⟩
    refine congrArg Host.Outcome.next ((syncAckFrom_of_slot hat).trans (asEvent_congr ?_))
    rw [applyStatuses_eq, ← hb]
    rfl

end Sys2Proof.MirrorChannel

/-! FW_DOWN and FW_UP occur only as the Health Monitor moves a health state (R131): nothing that follows a change of health raises
either. -/

namespace Sys2Proof.MirrorChannel

open Sys2Proof Sys2Proof.Machine Sys2Proof.Laws Sys2Proof.SessionTable Sys2Proof.Cutover Sys2Proof.FramePath

variable {s t u : State}

/-- From `s` to `t` neither FW_DOWN nor FW_UP has occurred. -/
def Silent (s t : State) : Prop := ∀ ev, ev = .fwDown ∨ ev = .fwUp → t.event ev = s.event ev

theorem Silent.refl (s : State) : Silent s s := fun _ _ => rfl

theorem Silent.trans (h : Silent s t) (k : Silent t u) : Silent s u := fun ev he => (k ev he).trans (h ev he)

theorem Silent.ite {c : Prop} [Decidable c] {a b : State} (ha : Silent s a) (hb : Silent s b) :
    Silent s (if c then a else b) := by split <;> assumption

theorem Silent.foldl {α : Type} {g : State → α → State} (hg : ∀ v x, Silent v (g v x)) (xs : List α) (s : State) :
    Silent s (xs.foldl g s) := by
  induction xs generalizing s with
  | nil => exact .refl s
  | cons x xs ih => exact (hg s x).trans (ih _)

theorem silent_of_events (h : t.events = s.events) : Silent s t := fun ev _ => by simp only [State.event, h]

/-- What leaves every event but those of the levels and CUTOVER_END leaves the two. -/
theorem silent_of_others
    (h : ∀ ev, ev ≠ .tableLevel → ev ≠ .parkLevel → ev ≠ .cutoverEnd → t.event ev = s.event ev) : Silent s t := by
  rintro ev (rfl | rfl) <;> exact h _ nofun nofun nofun

theorem raise_silent {ev : EventId} (s : State) (bs : List Byte) (h1 : ev ≠ .fwDown) (h2 : ev ≠ .fwUp) :
    Silent s (s.raise ev bs) := by
  rintro d (rfl | rfl)
  · exact (raise_event s ev _ bs).trans (if_neg h1.symm)
  · exact (raise_event s ev _ bs).trans (if_neg h2.symm)

theorem sendRoleChanges_silent (s : State) (ph : CutPhase) (a b : RoleName) : Silent s (s.sendRoleChanges ph a b) :=
  silent_of_events (sendRoleChanges_events s ph a b)

theorem asEvent_silent {body : State → State} (h : Silent s (body s)) : Silent s (s.asEvent body) :=
  h.trans (sendRoleChanges_silent _ _ _ _)

/-! ## The mirror abandoned, and taken anew -/

theorem abandonMirror_silent (s : State) (target : Option Fw) (st : MirrorState) (cursor : Nat) (begin : Bool) :
    Silent s (s.abandonMirror target st cursor begin) :=
  silent_of_others fun _ h1 h2 _ => abandonMirror_event s target st cursor begin h1 h2

theorem walkStart_silent (s : State) (f : Fw) : Silent s (s.walkStart f) :=
  (abandonMirror_silent s _ _ _ _).trans (silent_of_events (sendBatch_events _ _ _ _))

theorem retarget_silent (s : State) : Silent s s.retarget := silent_of_others fun _ h1 h2 _ => retarget_event s h1 h2

theorem dropTarget_silent (s : State) : Silent s s.dropTarget := .ite (.refl s) (abandonMirror_silent s _ _ _ _)

/-! ## The tests that end an event -/

theorem beginPlanned_silent (s : State) (r : CutReason) : Silent s (s.beginPlanned r) := by
  have kopen : Silent s (planned s r) := silent_of_events rfl
  have kraise : Silent (planned s r) ((planned s r).raise .cutoverStart (planned s r).startParams) := raise_silent _ _ nofun nofun
  have kdrain : Silent ((planned s r).raise .cutoverStart (planned s r).startParams) (announced s r) :=
    silent_of_events (handTx_events _ _ _)
  rw [beginPlanned_eq]
  exact ((kopen.trans kraise).trans kdrain).trans (silent_of_events (prePush_lanes _).events)

theorem preemptTest_silent (s : State) : Silent s s.preemptTest := .ite (beginPlanned_silent s _) (.refl s)

theorem endSettle_silent (s : State) : Silent s s.endSettle := by
  have kended : Silent s (settleEnded s) := silent_of_others fun ev _ _ h => (settleEnded_event s ev).trans (if_neg h)
  rw [endSettle_eq]
  exact (kended.trans (retarget_silent _)).trans (preemptTest_silent _)

theorem endWalk_silent (s : State) : Silent s s.endWalk := by
  have kended : Silent s (walkEnded s) := raise_silent { s with mirror := _ } _ nofun nofun
  exact kended.trans (preemptTest_silent _)

theorem finish_silent (s : State) : Silent s s.finish := by
  have ksettle : Silent s (if s.settleDone then s.endSettle else s) := .ite (endSettle_silent s) (.refl s)
  exact .ite (ksettle.trans (endWalk_silent _)) ksettle

/-! ## What a change of health comes to (R132) -/

theorem makeTransfer_silent (s : State) : Silent s s.makeTransfer :=
  silent_of_others fun _ h1 h2 h3 => makeTransfer_event s h1 h2 h3

/-- R153: an unplanned cutover started, the TRANSFER event not yet made. -/
def started (s : State) (r : CutReason) : State :=
  (s.openCutover .unplanned r).raise .cutoverStart (s.openCutover .unplanned r).startParams

theorem unplanned_eq (s : State) (r : CutReason) : s.unplanned r = (started s r).makeTransfer := rfl

theorem unplanned_silent (s : State) (r : CutReason) : Silent s (s.unplanned r) := by
  have kopen : Silent s (s.openCutover .unplanned r) := silent_of_events rfl
  have kstart : Silent (s.openCutover .unplanned r) (started s r) := raise_silent _ _ nofun nofun
  rw [unplanned_eq]
  exact (kopen.trans kstart).trans (makeTransfer_silent _)

theorem loseSource_silent (s : State) : Silent s s.loseSource := by
  have klost : Silent s { s with role := { s.role with kind := some .unplanned, quiesce := .stopped } } := silent_of_events rfl
  unfold State.loseSource
  exact klost.trans (makeTransfer_silent _)

theorem goDark_silent (s : State) (n : Nat) : Silent s (s.goDark n) := raise_silent { s with role := _ } _ nofun nofun

theorem raiseAbort_silent (s : State) (ph : CutPhase) : Silent s (s.raiseAbort ph) := raise_silent s _ nofun nofun

theorem clearAllMarks_silent (s : State) (how : MarkEnd) : Silent s (s.clearAllMarks how) :=
  .foldl (fun v h => silent_of_events (clearMark_events v h how)) _ s

theorem cutBack_silent (s : State) : Silent s s.cutBack := by
  refine Silent.trans ?_ (finish_silent _)
  refine Silent.trans ?_ (raiseAbort_silent _ _)
  refine Silent.trans ?_ (dropTarget_silent _)
  exact clearAllMarks_silent { s with decl := _, role := _ } .released

theorem unmarkAll_silent (s : State) : Silent s s.unmarkAll := .foldl (fun v h => silent_of_events (unmark_events v h)) _ s

theorem discardAll_silent (s : State) : Silent s s.discardAll := by
  have kchains : Silent s (s.handles.foldl State.discardChain s) :=
    .foldl (fun v h => silent_of_others fun _ _ h2 _ => discardChain_event v h h2) _ s
  exact kchains.trans (silent_of_events rfl)

theorem secondDark_silent (s : State) : Silent s s.secondDark := by
  refine Silent.trans ?_ (preemptTest_silent _)
  refine Silent.trans ?_ (raiseAbort_silent _ _)
  refine Silent.trans ?_ (goDark_silent _ _)
  refine Silent.trans ?_ (dropTarget_silent _)
  exact (unmarkAll_silent s).trans (discardAll_silent _)

theorem abortQuiesce_silent (s : State) : Silent s s.abortQuiesce := by
  have kabort : ∀ v : State, Silent v ((v.raiseAbort .quiesce).retarget).preemptTest := fun v =>
    ((raiseAbort_silent v _).trans (retarget_silent _)).trans (preemptTest_silent _)
  exact kabort { s with role := _ }

theorem activeChanged_silent (s : State) (n : HealthState) : Silent s (s.activeChanged n) := by
  have kloss : Silent s (if s.usable s.role.active.other then s.cutBack else s.secondDark) :=
    .ite (cutBack_silent s) (secondDark_silent s)
  unfold State.activeChanged
  refine .ite ?_ (.ite (silent_of_events rfl) (.refl s))
  split
  · exact .ite (unplanned_silent s _) (goDark_silent s 1)
  · exact loseSource_silent s
  · exact kloss
  · exact kloss

theorem otherChanged_silent (s : State) (f : Fw) (n : HealthState) : Silent s (s.otherChanged f n) := by
  have klate : Silent s (s.endLate f n) := .ite (silent_of_events rfl) (.refl s)
  unfold State.otherChanged
  refine .ite (unplanned_silent s _) (klate.trans ?_)
  dsimp only
  split
  · exact retarget_silent _
  · exact .ite (abortQuiesce_silent _) (retarget_silent _)
  · exact .refl _
  · exact .refl _

theorem handChange_silent (s : State) (f : Fw) (n : HealthState) (a b : RoleName) : Silent s (s.handChange f n a b) := by
  have kchange : Silent s (s.healthChanged f n) := .ite (activeChanged_silent s n) (otherChanged_silent s f n)
  exact (kchange.trans (finish_silent _)).trans (sendRoleChanges_silent _ _ _ _)

theorem handIfChanged_silent (s v : State) (f : Fw) : Silent s (s.handIfChanged v f) :=
  .ite (.refl s) (handChange_silent s _ _ _ _)

theorem mirrorPulse_silent (s : State) (f : Fw) : Silent s (s.mirrorPulse f) := .ite (walkStart_silent s f) (.refl s)

end Sys2Proof.MirrorChannel

/-! A PULSE (R125): the health record it leaves (R126, R127), and the events at its changes of state (R131). -/

namespace Sys2Proof.MirrorChannel

open Sys2Proof Sys2Proof.Machine Sys2Proof.Laws Sys2Proof.SessionTable Sys2Proof.SessionDeclarations Sys2Proof.FramePath

variable {s t u : State} {f : Fw} {c : Ccf} {h : HealthRecord}

theorem exec_pulse {fr : Frame} (f : Fw) (hg : goodCcf .pulse fr = true) :
    exec (.pulse f.inPort fr) s = .next ((s.inc (.framesIn f.inPort)).pulseFrom f (readCcf fr)) := by
  refine congrArg Host.Outcome.next ((receive_goodCcf hg (by cases f <;> rfl)).trans ?_)
  simp [State.toOwner, State.bySender, inOf_inPort]

theorem linksUp_iff (s : State) (f : Fw) :
    s.linksUp f = true ↔ (s.port f.inPort).link = .up ∧ (s.port f.outPort).link = .up := by simp [State.linksUp]

theorem roleOf_toNat (b : Byte) :
    roleOf b.toNat = if b = 1#8 then .active else if b = 2#8 then .standby else .none := by
  revert b
  decide

/-! ## The record (R126, R127) -/

theorem join_eq (h : HealthRecord) (good rejoin : Nat) : h.join good rejoin = { h with
    state := if rejoin ≤ good then .up else .joining, good := if rejoin ≤ good then 0 else good } := by
  unfold HealthRecord.join
  split <;> rfl

/-- R125 step 3: the health state and the good count are all that is judged. -/
theorem judgePulse_eq (h : HealthRecord) (up : Bool) (rejoin : Nat) : h.judgePulse up rejoin =
    { h with state := (h.judgePulse up rejoin).state, good := (h.judgePulse up rejoin).good } := by
  unfold HealthRecord.judgePulse HealthRecord.unfitPulse HealthRecord.fitPulse
  split
  · split <;> rfl
  · split
    · split <;> simp only [join_eq]
    · split <;> rfl

/-- R127: a PULSE of fitness 0. -/
theorem judgePulse_of_unfit (up : Bool) (rejoin : Nat) (hfit : h.fitness = 0) :
    (h.judgePulse up rejoin).good = 0 ∧
      (h.judgePulse up rejoin).state = if h.state.isDown then h.state else .down .unfit := by
  simp only [HealthRecord.judgePulse, hfit, if_true, HealthRecord.unfitPulse]
  cases h.state <;> simp [HealthState.isDown]

/-- R126: a PULSE while a link of the firewall is DOWN. -/
theorem judgePulse_of_linkDown (rejoin : Nat) (hfit : h.fitness ≠ 0) :
    (h.judgePulse false rejoin).state = if h.state.isDown then h.state else .down .link := by
  simp only [HealthRecord.judgePulse, hfit, if_false, HealthRecord.fitPulse, Bool.false_eq_true]
  cases hst : h.state <;> simp [HealthState.isDown, hst]

/-- R126: a PULSE of a firewall that is UP or SUSPECT. -/
theorem judgePulse_of_usable (rejoin : Nat) (hfit : h.fitness ≠ 0) (hst : h.state = .up ∨ h.state = .suspect) :
    (h.judgePulse true rejoin).state = .up := by
  rcases hst with hst | hst <;> simp [HealthRecord.judgePulse, hfit, HealthRecord.fitPulse, hst]

/-- R126: the good count of a firewall that is joining. -/
def goodCount (h : HealthRecord) : Nat := if h.state = .joining then min (h.good + 1) 15 else 1

/-- R126: a PULSE of a firewall that is ABSENT, JOINING or DOWN. -/
theorem judgePulse_of_joining (rejoin : Nat) (hfit : h.fitness ≠ 0) (hup : h.state ≠ .up) (hsus : h.state ≠ .suspect) :
    (h.judgePulse true rejoin).state = (if rejoin ≤ goodCount h then .up else .joining) ∧
      (h.judgePulse true rejoin).good = if rejoin ≤ goodCount h then 0 else goodCount h := by
  have hjoin : h.judgePulse true rejoin = h.join (goodCount h) rejoin := by
    simp only [HealthRecord.judgePulse, hfit, if_false, HealthRecord.fitPulse, if_true, goodCount]
    cases hst : h.state with
    | up => exact absurd hst hup
    | suspect => exact absurd hst hsus
    | absent | joining | down r => rfl
  rw [hjoin, join_eq]
  exact ⟨rfl, rfl⟩

/-! ## The events (R131) -/

theorem raiseHealth_fwDown (s : State) (f : Fw) (old new : HealthState) : (s.raiseHealth f old new).event .fwDown =
    if old.isDown = false ∧ new.isDown = true then (s.event .fwDown).next else s.event .fwDown := by
  cases new with
  | absent | joining | suspect => simp [State.raiseHealth, HealthState.isDown]
  | down r =>
    have hraise : (s.raiseFwDown f r).event .fwDown = (s.event .fwDown).next := (raise_event s _ _ _).trans (if_pos rfl)
    have hdown : (HealthState.down r).isDown = true := rfl
    cases ho : old.isDown <;> simp [State.raiseHealth, hdown, ho, hraise]
  | up =>
    have hraise : (s.raiseFwUp f).event .fwDown = s.event .fwDown := (raise_event s _ _ _).trans (if_neg nofun)
    simp only [State.raiseHealth, HealthState.isDown, Bool.false_eq_true, and_false, if_false]
    split
    · rfl
    · exact hraise

theorem raiseHealth_fwUp (s : State) (f : Fw) (old new : HealthState) : (s.raiseHealth f old new).event .fwUp =
    if old ≠ .up ∧ old ≠ .suspect ∧ new = .up then (s.event .fwUp).next else s.event .fwUp := by
  cases new with
  | absent | joining | suspect => simp [State.raiseHealth]
  | down r =>
    have hraise : (s.raiseFwDown f r).event .fwUp = s.event .fwUp := (raise_event s _ _ _).trans (if_neg nofun)
    cases ho : old.isDown <;> simp [State.raiseHealth, ho, hraise]
  | up =>
    have hraise : (s.raiseFwUp f).event .fwUp = (s.event .fwUp).next := (raise_event s _ _ _).trans (if_pos rfl)
    by_cases hold : old = .suspect ∨ old = .up
    · rw [if_neg (by tauto)]
      simp [State.raiseHealth, hold]
    · rw [if_pos (by tauto)]
      simp [State.raiseHealth, hold, hraise]

/-! ## The PULSE as a whole (R125, R136) -/

/-- R125 steps 1 to 4: the record kept, and the event of its change of state. -/
def pulseMoved (s : State) (f : Fw) (c : Ccf) : State := s.moveHealth f (s.pulsedRecord f c)

/-- R125 steps 5 and 6: the claimed role compared, and the ROLE frame sent. -/
def pulseAnswered (s : State) (f : Fw) (c : Ccf) : State := ((pulseMoved s f c).countMismatch f).sendRole f

/-- R147: the fitness condition evaluated too. -/
def pulseTaken (s : State) (f : Fw) (c : Ccf) : State := (pulseAnswered s f c).asEvent State.fitnessTaken

theorem pulseFrom_eq (s : State) (f : Fw) (c : Ccf) :
    s.pulseFrom f c = ((pulseTaken s f c).handIfChanged s f).mirrorPulse f := rfl

theorem pulseAnswered_sends (s : State) (f : Fw) (c : Ccf) : Sends (pulseMoved s f c) (pulseAnswered s f c) := by
  have kcount : Sends (pulseMoved s f c) ((pulseMoved s f c).countMismatch f) := by
    unfold State.countMismatch
    split <;> rfl
  exact kcount.trans (handTx_sends _ _ _)

theorem pulseAnswered_events (s : State) (f : Fw) (c : Ccf) : (pulseAnswered s f c).events = (pulseMoved s f c).events := by
  refine (handTx_events _ _ _).trans ?_
  unfold State.countMismatch
  split <;> rfl

theorem pulseTaken_kept (s : State) (f : Fw) (c : Ccf) : Kept (s.setFw f (s.pulsedRecord f c)) (pulseTaken s f c) := by
  have kmoved : Held (s.setFw f (s.pulsedRecord f c)) (pulseMoved s f c) := raiseHealth_held _ _ _ _
  have kanswered : Held (pulseMoved s f c) (pulseAnswered s f c) := (countMismatch_held _ f).trans (sendRole_held _ f)
  exact ((kmoved.trans kanswered).trans ((fitnessTaken_held _).trans (sendRoleChanges_held _ _ _ _))).toKept

theorem pulseFrom_kept (s : State) (f : Fw) (c : Ccf) : Kept (s.setFw f (s.pulsedRecord f c)) (s.pulseFrom f c) :=
  (pulseTaken_kept s f c).trans ((handIfChanged_moved _ s f).toKept.trans (mirrorPulse_still _ f).toKept)

/-- R122: what a PULSE leaves of the health records. -/
theorem pulseFrom_fw (s : State) (f g : Fw) (c : Ccf) :
    (s.pulseFrom f c).fw g = if g = f then s.pulsedRecord f c else s.fw g :=
  (congrArg (PerFw.get · g) (pulseFrom_kept s f c).health).trans (fw_setFw s f g _)

theorem pulseFrom_silent (s : State) (f : Fw) (c : Ccf) : Silent (pulseMoved s f c) (s.pulseFrom f c) := by
  have kanswered : Silent (pulseMoved s f c) (pulseAnswered s f c) := silent_of_events (pulseAnswered_events s f c)
  have kfitness : Silent (pulseAnswered s f c) (pulseAnswered s f c).fitnessTaken :=
    (silent_of_events rfl).trans (preemptTest_silent (pulseAnswered s f c).evalFitness)
  have ktaken : Silent (pulseAnswered s f c) (pulseTaken s f c) := asEvent_silent kfitness
  exact ((kanswered.trans ktaken).trans (handIfChanged_silent _ s f)).trans (mirrorPulse_silent _ f)

theorem pulseFrom_fwDown (s : State) (f : Fw) (c : Ccf) : (s.pulseFrom f c).event .fwDown =
    if (s.fw f).state.isDown = false ∧ (s.pulsedRecord f c).state.isDown = true then (s.event .fwDown).next
    else s.event .fwDown :=
  (pulseFrom_silent s f c _ (.inl rfl)).trans (raiseHealth_fwDown _ f _ _)

theorem pulseFrom_fwUp (s : State) (f : Fw) (c : Ccf) : (s.pulseFrom f c).event .fwUp =
    if (s.fw f).state ≠ .up ∧ (s.fw f).state ≠ .suspect ∧ (s.pulsedRecord f c).state = .up then (s.event .fwUp).next
    else s.event .fwUp :=
  (pulseFrom_silent s f c _ (.inr rfl)).trans (raiseHealth_fwUp _ f _ _)

end Sys2Proof.MirrorChannel

/-! What a PULSE may come to beyond its sender's record: the walk of a STALLED mirror restarted (R110), and the active role
recovered (R144). -/

namespace Sys2Proof.MirrorChannel

open Sys2Proof Sys2Proof.Machine Sys2Proof.Laws Sys2Proof.SessionTable Sys2Proof.SessionDeclarations Sys2Proof.Cutover
  Sys2Proof.FramePath

variable {s t u : State} {f : Fw} {c : Ccf}

/-! ## The states of a PULSE, up to the fitness condition -/

/-- R131: a change of health state raises one event at most. -/
theorem raiseHealth_cases (s : State) (f : Fw) (old new : HealthState) :
    s.raiseHealth f old new = s ∨ ∃ ev bs, s.raiseHealth f old new = s.raise ev bs := by
  unfold State.raiseHealth
  split
  · split
    · exact .inl rfl
    · exact .inr ⟨_, _, rfl⟩
  · split
    · exact .inl rfl
    · exact .inr ⟨_, _, rfl⟩
  all_goals exact .inl rfl

theorem pulseMoved_sends (s : State) (f : Fw) (c : Ccf) : Sends (s.setFw f (s.pulsedRecord f c)) (pulseMoved s f c) := by
  unfold pulseMoved State.moveHealth
  rcases raiseHealth_cases (s.setFw f (s.pulsedRecord f c)) f (s.fw f).state (s.pulsedRecord f c).state with h | ⟨ev, bs, h⟩ <;>
    rw [h]
  · exact .refl _
  · exact raise_sends _ _ _

theorem pulseAnswered_fromRecord (s : State) (f : Fw) (c : Ccf) :
    Sends (s.setFw f (s.pulsedRecord f c)) (pulseAnswered s f c) :=
  (pulseMoved_sends s f c).trans (pulseAnswered_sends s f c)

/-- R89, R147: with no STREAMING mirror and target the fitness condition moves the dwell alone. -/
theorem fitnessTaken_of_unready (h : s.mirror.state ≠ .streaming ∨ s.mirror.target = none) :
    s.fitnessTaken = s.evalFitness := by
  refine preemptTest_of_not (.inr (.inr (.inl (Bool.eq_false_iff.mpr fun hr => ?_))))
  obtain ⟨-, htarget, hstate⟩ := (ready_iff _).mp hr
  rcases h with h | h
  · exact h hstate
  · cases h.symm.trans htarget

/-- R136, R147: the ROLE frames that follow a fitness condition that moves the dwell alone. -/
theorem pulseTaken_of_unready (h : s.mirror.state ≠ .streaming ∨ s.mirror.target = none) (f : Fw) (c : Ccf) :
    pulseTaken s f c = (pulseAnswered s f c).evalFitness.sendRoleChanges (pulseAnswered s f c).role.phase
      ((pulseAnswered s f c).assigned .a) ((pulseAnswered s f c).assigned .b) := by
  have hmirror : (pulseAnswered s f c).mirror = s.mirror := (pulseAnswered_fromRecord s f c).mirror
  unfold pulseTaken State.asEvent
  rw [fitnessTaken_of_unready (by rw [hmirror]; exact h)]

theorem pulseTaken_sends (h : s.mirror.state ≠ .streaming ∨ s.mirror.target = none) (f : Fw) (c : Ccf) :
    Sends (pulseAnswered s f c).evalFitness (pulseTaken s f c) := by
  rw [pulseTaken_of_unready h]
  exact sendRoleChanges_sends _ _ _ _

theorem pulseTaken_fw (s : State) (f g : Fw) (c : Ccf) :
    (pulseTaken s f c).fw g = if g = f then s.pulsedRecord f c else s.fw g :=
  (congrArg (PerFw.get · g) (pulseTaken_kept s f c).health).trans (fw_setFw s f g _)

theorem pulseMoved_count (s : State) (f : Fw) (c : Ccf) {k : Counter} (hk : k ≠ .txDrop) :
    (pulseMoved s f c).count k = s.count k := by
  unfold pulseMoved State.moveHealth
  rcases raiseHealth_cases (s.setFw f (s.pulsedRecord f c)) f (s.fw f).state (s.pulsedRecord f c).state with h | ⟨ev, bs, h⟩ <;>
    rw [h]
  · rfl
  · exact raise_count _ _ _ hk

theorem pulseAnswered_count (s : State) (f : Fw) (c : Ccf) {k : Counter} (h1 : k ≠ .txDrop) (h2 : k ≠ .roleMismatch) :
    (pulseAnswered s f c).count k = s.count k := by
  refine (handTx_count _ _ _ h1).trans (Eq.trans ?_ (pulseMoved_count s f c h1))
  unfold State.countMismatch
  split
  · rfl
  · rw [count_inc, if_neg h2]

theorem pulseTaken_count (h : s.mirror.state ≠ .streaming ∨ s.mirror.target = none) (f : Fw) (c : Ccf) {k : Counter}
    (h1 : k ≠ .txDrop) (h2 : k ≠ .roleMismatch) : (pulseTaken s f c).count k = s.count k := by
  rw [pulseTaken_of_unready h, sendRoleChanges_count _ _ _ _ h1]
  exact pulseAnswered_count s f c h1 h2

/-! ## The walk of a STALLED mirror restarted (R110) -/

/-- R110: the target of a STALLED mirror, its restart hold expired, sends a PULSE that leaves its health state. -/
theorem pulseFrom_restarts (hsame : (s.pulsedRecord f c).state = (s.fw f).state) (hm : s.mirror.state = .stalled)
    (ht : s.mirror.target = some f) (hh : s.mirror.restartHold = .expired) :
    (s.pulseFrom f c).mirror = walkBegin s.mirror f ∧
      (s.pulseFrom f c).count .walks = min (s.count .walks + 1) Config.counterMax := by
  have hidle : s.mirror.state ≠ .streaming ∨ s.mirror.target = none := .inl (by rw [hm]; nofun)
  have hmirror : (pulseTaken s f c).mirror = s.mirror :=
    (pulseTaken_sends hidle f c).mirror.trans (pulseAnswered_fromRecord s f c).mirror
  have hstill : (pulseTaken s f c).handIfChanged s f = pulseTaken s f c :=
    if_pos (by rw [pulseTaken_fw, if_pos rfl, hsame])
  have hpulse : (pulseTaken s f c).mirrorPulse f = (pulseTaken s f c).walkStart f :=
    if_pos (by rw [hmirror]; exact ⟨hm, ht, hh⟩)
  have hcount : (pulseTaken s f c).count .walks = s.count .walks := pulseTaken_count hidle f c (by decide) (by decide)
  rw [pulseFrom_eq, hstill, hpulse, walkStart_begins, hmirror,
    walkStart_count _ _ (by decide) (by decide) (by decide) (by decide), if_pos rfl, hcount]
  exact ⟨rfl, rfl⟩

/-! ## What follows a TRANSFER event with no standby left (R153) -/

/-- The table, the roles and the sequence records go on as the rest of a TRANSFER event may take them. -/
structure Trails (s t : State) : Prop extends Still s t, Onward s t where
  thins : Thins s t

theorem Trails.trans (h : Trails s t) (k : Trails t u) : Trails s u :=
  ⟨h.toStill.trans k.toStill, h.toOnward.trans k.toOnward, h.thins.trans k.thins⟩

/-- What keeps the phase of every entry and the roles as they are. -/
theorem trails_of_held (h : Held s t) (hr : t.role = s.role) : Trails s t :=
  ⟨h.toStill, onward_of_role hr, thins_of_held h⟩

/-- R116, R160: with no standby there is nothing to pre-empt with, and SETTLE or a walk may end. -/
theorem finish_trails (h : s.standby = none) : Trails s s.finish := by
  refine ⟨finish_still s, ?_, finish_thins s⟩
  have kended : Onward s (settleEnded s).retarget := (settleEnded_onward s).trans (retarget_onward _)
  have hended : (settleEnded s).retarget.standby = none := by
    refine (standby_congr ?_ ?_).trans h
    · rw [kended.role]
    · exact ((settleEnded_held s).toStill.trans (retarget_still _)).health
  have hend : s.endSettle = (settleEnded s).retarget := (endSettle_eq s).trans (preemptTest_of_no_standby hended)
  have kwalk : ∀ v : State, v.standby = none → Onward v (if v.walkDone then v.endWalk else v) := fun v hv => by
    split
    · have hwalk : (walkEnded v).standby = none :=
        (standby_congr (by rw [(walkEnded_sends v).role]) (walkEnded_sends v).health).trans hv
      have hewalk : v.endWalk = walkEnded v := preemptTest_of_no_standby hwalk
      rw [hewalk]
      exact onward_of_role (walkEnded_sends v).role
    · exact .refl v
  unfold State.finish
  dsimp only
  rw [hend]
  by_cases hd : s.settleDone = true
  · rw [if_pos hd]
    exact kended.trans (kwalk _ hended)
  · rw [if_neg hd]
    exact kwalk s h

theorem mirrorPulse_trails (s : State) (f : Fw) : Trails s (s.mirrorPulse f) := by
  refine ⟨mirrorPulse_still s f, ?_, ?_⟩ <;> unfold State.mirrorPulse <;> split
  · exact (abandonMirror_onward s _ _ _ _).trans (onward_of_role (sendBatch_sends _ _ _ _).role)
  · exact .refl s
  · exact (abandonMirror_thins s _ _ _ _).trans (thins_of_held ((sendBatch_held _ _ _ _).trans (inc_held _ _)))
  · exact thins_of_held (.refl s)

/-! ## What `State.transferredTo` reads -/

theorem transferredTo_of_same {v : State} {d : Fw} (h : v.transferredTo t d) (htab : v.table = s.table) (hdecl : v.decl = s.decl)
    (hpar : v.params = s.params) (hepoch : v.role.epoch = s.role.epoch) : s.transferredTo t d := by
  simp only [State.transferredTo, State.movedTo, State.tableOk, State.param, htab, hdecl, hpar, hepoch] at h ⊢
  exact h

/-- The cutover under way: its kind, its reason, and the firewalls it moves the active role between. -/
def cutoverOf (s : State) : Option CutKind × Option CutReason × Option Fw × Option Fw :=
  (s.role.kind, s.role.reason, s.role.source, s.role.dest)

theorem cutoverOf_onward (h : Onward s t) : cutoverOf t = cutoverOf s := by rw [cutoverOf, h.role]; rfl

theorem cutoverOf_roleMoved (s : State) : cutoverOf (roleMoved s) = cutoverOf s := rfl

theorem cutoverOf_evalFitness (s : State) : cutoverOf s.evalFitness = cutoverOf s := rfl

theorem transferredTo_evalFitness {d : Fw} (h : s.transferredTo t d) : s.transferredTo t.evalFitness d := h

theorem transferredTo_trails {v : State} {d : Fw} (h : s.transferredTo v d) (hok : s.tableOk → v.tableOk) (k : Trails v t) :
    s.transferredTo t d := by
  obtain ⟨⟨hactive, hepoch, hown, hother⟩, hstart, hdark, hhold, hphase⟩ := h
  have hrole := k.role
  refine ⟨⟨k.active.trans hactive, k.epoch.trans hepoch, by rw [k.decl, hown], by rw [k.decl, hother]⟩, ?_, ?_, ?_,
    fun hs g => ?_⟩
  · rw [hrole]; exact hstart
  · rw [hrole]; exact hdark
  · rw [hrole]; exact hhold
  · rcases (k.thins (hok hs)).2 g with hg | hg <;> rw [hg]
    · exact hphase hs g
    · nofun

/-! ## The active role recovered (R144) -/

theorem started_sends (s : State) (r : CutReason) : Sends (s.openCutover .unplanned r) (started s r) := raise_sends _ _ _

theorem started_table (s : State) (r : CutReason) : (started s r).table = s.table := (started_sends s r).table

theorem started_decl (s : State) (r : CutReason) : (started s r).decl = s.decl := (started_sends s r).decl

theorem started_params (s : State) (r : CutReason) : (started s r).params = s.params := (started_sends s r).params

/-- R210: CUTOVER_START is latched as an unplanned cutover starts. -/
theorem started_flag (s : State) (r : CutReason) : ((started s r).event .cutoverStart).flag = true := by
  have hev : (started s r).event .cutoverStart = (s.event .cutoverStart).next := (raise_event _ _ _ _).trans (if_pos rfl)
  rw [hev, next_eq]

/-- R144: a PULSE makes the firewall that is not active UP, with no cutover under way and the active one not usable. -/
structure Recovery (s : State) (f : Fw) (c : Ccf) : Prop where
  active : s.role.active = f.other
  unusable : s.usable f.other = false
  phase : s.role.phase = .none
  target : s.mirror.target = none
  due : s.role.dark = true ∨ s.role.startup = .over
  before : (s.fw f).state ≠ .up
  after : (s.pulsedRecord f c).state = .up

/-- R132, R153: the TRANSFER event of a recovery, before the fitness condition and the tests that follow it. -/
def recovered (s : State) (f : Fw) (c : Ccf) : State := (started (pulseTaken s f c) .recovery).makeTransfer

theorem Recovery.role (h : Recovery s f c) :
    (pulseTaken s f c).role = { s.role with dwell := (pulseTaken s f c).role.dwell } := by
  have hrole : (pulseTaken s f c).role = (pulseAnswered s f c).evalFitness.role := (pulseTaken_sends (.inr h.target) f c).role
  have hkept : (pulseAnswered s f c).role = s.role := (pulseAnswered_fromRecord s f c).role
  rw [hrole, State.evalFitness, hkept]

/-- R125: what a PULSE leaves as it was, up to the change of health handed over. -/
theorem Recovery.taken (h : Recovery s f c) : (pulseTaken s f c).table = s.table ∧ (pulseTaken s f c).decl = s.decl ∧
    (pulseTaken s f c).params = s.params := by
  have ktaken := pulseTaken_sends (.inr h.target) f c
  have kanswered := pulseAnswered_fromRecord s f c
  exact ⟨ktaken.table.trans kanswered.table, ktaken.decl.trans kanswered.decl, ktaken.params.trans kanswered.params⟩

theorem Recovery.usable_other (h : Recovery s f c) : (pulseTaken s f c).usable f.other = false := by
  rw [State.usable, pulseTaken_fw, if_neg (fw_other_ne f)]
  exact h.unusable

theorem Recovery.recovers (h : Recovery s f c) : (pulseTaken s f c).recovers .up = true := by
  have hactive : (pulseTaken s f c).role.active = f.other := by rw [h.role]; exact h.active
  have hdue : ((pulseTaken s f c).role.dark || (pulseTaken s f c).role.startup == .over) = true := by
    rw [h.role]
    simpa using h.due
  have hphase : (pulseTaken s f c).role.phase = .none := by rw [h.role]; exact h.phase
  simp [State.recovers, hactive, h.usable_other, hdue, hphase]

theorem Recovery.handed (h : Recovery s f c) : (pulseTaken s f c).handIfChanged s f =
    (recovered s f c).evalFitness.finish.sendRoleChanges (pulseTaken s f c).role.phase (s.assigned .a) (s.assigned .b) := by
  have hstate : ((pulseTaken s f c).fw f).state = .up := by rw [pulseTaken_fw, if_pos rfl, h.after]
  have hactive : f ≠ (pulseTaken s f c).role.active := by
    rw [h.role]
    exact fun he => (fw_other_ne f) (h.active.symm.trans he.symm)
  have hother : (pulseTaken s f c).otherChanged f .up = recovered s f c := if_pos h.recovers
  have hchange : (pulseTaken s f c).healthChanged f .up = (recovered s f c).evalFitness := by
    rw [State.healthChanged, if_neg hactive, hother]
  rw [State.handIfChanged, if_neg (by rw [hstate]; exact h.before.symm), hstate, State.handChange, hchange]

/-- R153: the cutover of a recovery, and the roles as its TRANSFER event finds them. -/
theorem Recovery.started_role (h : Recovery s f c) : (started (pulseTaken s f c) .recovery).role =
    { s.role with
        kind := some .unplanned, reason := some .recovery, source := some f.other, dest := some f, record := .zero
        dwell := (pulseTaken s f c).role.dwell } := by
  have hopen : (started (pulseTaken s f c) .recovery).role = ((pulseTaken s f c).openCutover .unplanned .recovery).role :=
    (started_sends _ _).role
  rw [hopen, State.openCutover, h.role, h.active, fw_other_other]

/-- R144, R153: the TRANSFER event of a recovery moves the active role to the sender. -/
theorem Recovery.transferred (h : Recovery s f c) : s.transferredTo (recovered s f c) f := by
  have hends : (started (pulseTaken s f c) .recovery).endsQuiesce (recovered s f c) := makeTransfer_endsQuiesce _
  obtain ⟨hmove, -⟩ := hends
  obtain ⟨htable, hdecl, hparams⟩ := h.taken
  have hdest : (started (pulseTaken s f c) .recovery).role.active.other = f := by
    rw [h.started_role]
    exact (congrArg Fw.other h.active).trans (fw_other_other f)
  rw [hdest] at hmove
  refine transferredTo_of_same hmove ?_ ?_ ?_ ?_
  · rw [started_table, htable]
  · rw [started_decl, hdecl]
  · rw [started_params, hparams]
  · rw [h.started_role]

theorem Recovery.recovered_cutover (h : Recovery s f c) :
    cutoverOf (recovered s f c) = (some .unplanned, some .recovery, some f.other, some f) := by
  rw [recovered, cutoverOf_onward (makeTransfer_onward _), cutoverOf_roleMoved, cutoverOf, h.started_role]

theorem recovered_kept (s : State) (f : Fw) (c : Ccf) : Kept (pulseTaken s f c) (recovered s f c) :=
  (unplanned_moved (pulseTaken s f c) .recovery).toKept

theorem Recovery.recovered_standby (h : Recovery s f c) : (recovered s f c).evalFitness.standby = none := by
  obtain ⟨⟨hactive, -⟩, -⟩ := h.transferred
  rw [evalFitness_standby]
  refine standby_of_unusable ?_
  rw [hactive, ← h.usable_other]
  simp only [State.usable, State.fw, (recovered_kept s f c).health]

/-- R144, R153: after the TRANSFER event of a recovery. -/
theorem Recovery.trails (h : Recovery s f c) : Trails (recovered s f c).evalFitness (s.pulseFrom f c) := by
  rw [pulseFrom_eq, h.handed]
  exact ((finish_trails h.recovered_standby).trans
    (trails_of_held (sendRoleChanges_held _ _ _ _) (sendRoleChanges_sends _ _ _ _).role)).trans (mirrorPulse_trails _ f)

/-- R144: what a recovery comes to. -/
theorem Recovery.outcome (h : Recovery s f c) : s.transferredTo (s.pulseFrom f c) f ∧
    cutoverOf (s.pulseFrom f c) = (some .unplanned, some .recovery, some f.other, some f) ∧
      ((s.pulseFrom f c).event .cutoverStart).flag = true := by
  have ktrails := h.trails
  have hok : s.tableOk → (recovered s f c).evalFitness.tableOk := fun hs =>
    (evalFitness_held _).table ((recovered_kept s f c).table ((pulseTaken_kept s f c).table hs))
  have hflag : ((recovered s f c).event .cutoverStart).flag = true := by
    rw [recovered, makeTransfer_event (ev := .cutoverStart) _ nofun nofun nofun]
    exact started_flag _ _
  have hkept : ((recovered s f c).evalFitness.event .cutoverStart).flag = true :=
    (evalFitness_held (recovered s f c)).flags _ hflag
  have hmove : s.transferredTo (recovered s f c).evalFitness f := transferredTo_evalFitness h.transferred
  refine ⟨transferredTo_trails hmove hok ktrails, ?_, ktrails.flags .cutoverStart hkept⟩
  rw [cutoverOf_onward ktrails.toOnward, cutoverOf_evalFitness, h.recovered_cutover]

/-! ## The record, in the terms of the frame -/

/-- R125 step 2: the fitness that a PULSE gives. -/
def fitnessIn (c : Ccf) : Nat := (byteAt c.payload 1).toNat

theorem pulsedRecord_eq (s : State) (f : Fw) (c : Ccf) : s.pulsedRecord f c =
    { (s.fw f).recordPulse c (s.param .beatPeriod) with
        state := (s.pulsedRecord f c).state, good := (s.pulsedRecord f c).good } := judgePulse_eq _ _ _

/-- R125 step 2: what is recorded of every PULSE. -/
theorem pulsedRecord_records (s : State) (f : Fw) (c : Ccf) : (s.pulsedRecord f c).misses = 0 ∧
    (s.pulsedRecord f c).lastSeq = c.seq ∧ (s.pulsedRecord f c).fitness = fitnessIn c ∧
    (s.pulsedRecord f c).claimed =
      (if byteAt c.payload 0 = 1#8 then .active else if byteAt c.payload 0 = 2#8 then .standby else .none) ∧
    (s.pulsedRecord f c).pulseTimer = .running (s.param .beatPeriod) ∧
    (s.pulsedRecord f c).learned = (if isGroup c.source then (s.fw f).learned else c.source) := by
  rw [pulsedRecord_eq, ← roleOf_toNat]
  exact ⟨rfl, rfl, rfl, rfl, rfl, rfl⟩

theorem pulsedRecord_of_unfit (hfit : fitnessIn c = 0) : (s.pulsedRecord f c).good = 0 ∧
    (s.pulsedRecord f c).state = if (s.fw f).state.isDown then (s.fw f).state else .down .unfit :=
  judgePulse_of_unfit (h := (s.fw f).recordPulse c (s.param .beatPeriod)) _ _ hfit

theorem pulsedRecord_of_linkDown (hfit : fitnessIn c ≠ 0) (hup : s.linksUp f = false) :
    (s.pulsedRecord f c).state = if (s.fw f).state.isDown then (s.fw f).state else .down .link := by
  rw [State.pulsedRecord, hup]
  exact judgePulse_of_linkDown (h := (s.fw f).recordPulse c (s.param .beatPeriod)) _ hfit

theorem pulsedRecord_of_usable (hfit : fitnessIn c ≠ 0) (hup : s.linksUp f = true)
    (hst : (s.fw f).state = .up ∨ (s.fw f).state = .suspect) : (s.pulsedRecord f c).state = .up := by
  rw [State.pulsedRecord, hup]
  exact judgePulse_of_usable (h := (s.fw f).recordPulse c (s.param .beatPeriod)) _ hfit hst

theorem pulsedRecord_of_joining (hfit : fitnessIn c ≠ 0) (hup : s.linksUp f = true) (h1 : (s.fw f).state ≠ .up)
    (h2 : (s.fw f).state ≠ .suspect) :
    (s.pulsedRecord f c).state = (if s.param .rejoinCount ≤ goodCount (s.fw f) then .up else .joining) ∧
      (s.pulsedRecord f c).good = if s.param .rejoinCount ≤ goodCount (s.fw f) then 0 else goodCount (s.fw f) := by
  rw [State.pulsedRecord, hup]
  exact judgePulse_of_joining (h := (s.fw f).recordPulse c (s.param .beatPeriod)) _ hfit h1 h2

/-- Settles O35: the record by the tables of R126 and R127, the events by what raises them, the walk and the TRANSFER event by the
states that a PULSE goes through. -/
theorem pulseMovesTheSendersHealth : Obligations.PulseMovesTheSendersHealth := by
  intro f fr s hg c fit h up good
  let v := s.inc (.framesIn f.inPort)
  have hup : up → v.linksUp f = true := (linksUp_iff v f).mpr
  have hdown : ¬up → v.linksUp f = false := fun hn => Bool.eq_false_iff.mpr (mt (linksUp_iff v f).mp hn)
  have hrec : (v.pulseFrom f c).fw f = v.pulsedRecord f c := (pulseFrom_fw v f f c).trans (if_pos rfl)
  have hother : (v.pulseFrom f c).fw f.other = s.fw f.other := (pulseFrom_fw v f f.other c).trans (if_neg (fw_other_ne f))
  obtain ⟨hmisses, hseq, hfitness, hclaimed, htimer, hlearned⟩ := pulsedRecord_records v f c
  refine ⟨v.pulseFrom f c, exec_pulse f hg, hother, ?_⟩
  rw [hrec]
  refine ⟨hmisses, hseq, hfitness, hclaimed, htimer, hlearned, pulsedRecord_of_unfit,
    fun hfit hn => pulsedRecord_of_linkDown hfit (hdown hn), fun hfit hu => pulsedRecord_of_usable hfit (hup hu),
    fun hfit hu => pulsedRecord_of_joining hfit (hup hu), pulseFrom_fwDown v f c, pulseFrom_fwUp v f c,
    fun hfit hu hst _ hm ht hh => ?_, fun hfit hu h1 h2 hgood ha hun hp ht hdue => ?_⟩
  · have hsame : (v.pulsedRecord f c).state = (v.fw f).state := (pulsedRecord_of_usable hfit (hup hu) (.inl hst)).trans hst.symm
    obtain ⟨hbegin, hwalks⟩ := pulseFrom_restarts (s := v) hsame hm ht hh
    have hcount : v.count .walks = s.count .walks := (count_inc s _ _).trans (if_neg nofun)
    exact ⟨hbegin, hwalks.trans (by rw [hcount])⟩
  · obtain ⟨hstate, -⟩ := pulsedRecord_of_joining hfit (hup hu) h1 h2
    have hrecovery : Recovery v f c := ⟨ha, hun, hp, ht, hdue, h1, hstate.trans (if_pos hgood)⟩
    obtain ⟨hmove, hcut, hflag⟩ := hrecovery.outcome
    simp only [cutoverOf, Prod.mk.injEq] at hcut
    obtain ⟨hkind, hreason, hsource, hdest⟩ := hcut
    exact ⟨hmove, hkind, hreason, hsource, hdest, hflag⟩

end Sys2Proof.MirrorChannel

/-! A miss (R128): the health record that an expiry of the pulse timer leaves, and the change of state handed over (R131, R132). -/

namespace Sys2Proof.FirewallHealth

open Sys2Proof Sys2Proof.Machine Sys2Proof.Laws Sys2Proof.SessionTable Sys2Proof.FramePath Sys2Proof.MirrorChannel

variable {s t : State} {f : Fw}

/-! ## The record (R128) -/

/-- R128: a miss moves four fields, the state and the good count by the state before it. -/
theorem miss_eq (h : HealthRecord) (beat dead : Nat) : h.miss beat dead = { h with
    misses := min (h.misses + 1) 15
    pulseTimer := .running beat
    good := if h.state = .joining then 0 else h.good
    state :=
      if h.state = .up then .suspect
      else if h.state = .suspect then (if dead ≤ min (h.misses + 1) 15 then .down .pulseLoss else .suspect)
      else if h.state = .joining then .down .pulseLoss
      else h.state } := by
  unfold HealthRecord.miss
  cases hst : h.state with
  | suspect => by_cases hd : dead ≤ min (h.misses + 1) 15 <;> simp [hd]
  | absent | joining | up | down r => simp

/-- R128: a firewall's health record after an expiry of its pulse timer. -/
def missed (s : State) (f : Fw) : HealthRecord := (s.fw f).miss (s.param .beatPeriod) (s.param .deadCount)

/-- R128: a miss that enters DOWN is one while JOINING, or one while SUSPECT that reaches the dead count. -/
def dies (s : State) (f : Fw) : Prop := (s.fw f).state = .joining ∨
  ((s.fw f).state = .suspect ∧ s.param .deadCount ≤ min ((s.fw f).misses + 1) 15)

theorem missed_of_dies (h : dies s f) : (s.fw f).state.isDown = false ∧ (missed s f).state.isDown = true := by
  rw [missed, miss_eq]
  rcases h with hst | ⟨hst, hdead⟩
  · simp [hst, HealthState.isDown]
  · simp [hst, hdead, HealthState.isDown]

theorem missed_of_not_dies (h : ¬ dies s f) :
    (missed s f).state = (s.fw f).state ∨ (missed s f).state = .suspect := by
  obtain ⟨hjoining, hdead⟩ := not_or.mp h
  rw [missed, miss_eq]
  cases hst : (s.fw f).state with
  | absent | down r => exact .inl (by simp)
  | up => exact .inr (by simp)
  | joining => exact absurd hst hjoining
  | suspect => exact .inr (by simpa using fun hd => hdead ⟨hst, hd⟩)

/-! ## A change handed over (R132) -/

/-- R140, R143: a firewall that becomes SUSPECT moves neither the active role nor the epoch. -/
theorem healthChanged_suspect_still (s : State) (f : Fw) : Still s (s.healthChanged f .suspect) := by
  have kother : Still s (s.otherChanged f .suspect) := by
    have hrec : s.recovers .suspect = false := rfl
    have hlate : s.endLate f .suspect = s := if_neg nofun
    simp only [State.otherChanged, hrec, hlate, Bool.false_eq_true, if_false]
    split
    · exact retarget_still s
    · exact .ite (fun _ => abortQuiesce_still s) (fun _ => retarget_still s)
    · exact .refl s
    · exact .refl s
  exact Still.trans (.ite (fun _ => .refl s) (fun _ => kother)) (evalFitness_held _).toStill

theorem handIfChanged_of_same (h : (t.fw f).state = (s.fw f).state) : t.handIfChanged s f = t := if_pos h

theorem handIfChanged_still (h : (t.fw f).state = (s.fw f).state ∨ (t.fw f).state = .suspect) :
    Still t (t.handIfChanged s f) := by
  rcases h with hsame | hsuspect
  · rw [handIfChanged_of_same hsame]
    exact .refl t
  · refine .ite (fun _ => .refl t) (fun _ => ?_)
    rw [hsuspect]
    exact ((healthChanged_suspect_still t f).trans (finish_still _)).trans (sendRoleChanges_held _ _ _ _).toStill

/-! ## The expiry -/

/-- R128, R131: the miss recorded, and the event of its change of state. -/
def missMoved (s : State) (f : Fw) : State := s.moveHealth f (missed s f)

theorem missMoved_held (s : State) (f : Fw) : Held (s.setFw f (missed s f)) (missMoved s f) := raiseHealth_held _ _ _ _

theorem missMoved_fw (s : State) (f g : Fw) : (missMoved s f).fw g = if g = f then missed s f else s.fw g :=
  (congrArg (PerFw.get · g) (missMoved_held s f).health).trans (fw_setFw s f g _)

theorem missMoved_fwDown (h : dies s f) : ((missMoved s f).event .fwDown).flag = true := by
  have hev : (missMoved s f).event .fwDown = (s.event .fwDown).next :=
    (raiseHealth_fwDown _ f _ _).trans (if_pos (missed_of_dies h))
  rw [hev, next_eq]

theorem pulseExpiry_of_running (h : (s.fw f).pulseTimer ≠ .stopped) :
    s.pulseExpiry f = (missMoved s f).handIfChanged s f := if_pos ((isRunning_iff _).mpr h)

/-- R132: what the Role Controller makes of a miss leaves the health records. -/
theorem handedMiss_fw (s : State) (f g : Fw) :
    ((missMoved s f).handIfChanged s f).fw g = if g = f then missed s f else s.fw g :=
  (congrArg (PerFw.get · g) (handIfChanged_moved (missMoved s f) s f).health).trans (missMoved_fw s f g)

/-- Short of an entry into DOWN a miss moves neither the active role nor the epoch. -/
theorem handedMiss_still (h : ¬ dies s f) : Still (s.setFw f (missed s f)) ((missMoved s f).handIfChanged s f) := by
  refine (missMoved_held s f).toStill.trans (handIfChanged_still ?_)
  rw [missMoved_fw, if_pos rfl]
  exact missed_of_not_dies h

/-- Settles O37: the record by the table of R128, FW_DOWN by the event of a change into DOWN, and the roles by what a change into
SUSPECT can move. -/
theorem pulseTimerExpiryCountsAMiss : Obligations.PulseTimerExpiryCountsAMiss := by
  intro f s h misses hrun
  refine ⟨_, congrArg Host.Outcome.next (pulseExpiry_of_running hrun), ?_, ?_, fun hdies => ?_, fun hjoining hsuspect => ?_⟩
  · rw [handedMiss_fw, if_neg (fw_other_ne f)]
  · rw [handedMiss_fw, if_pos rfl]
    exact miss_eq _ _ _
  · exact (handIfChanged_moved (missMoved s f) s f).flags .fwDown (missMoved_fwDown hdies)
  · have hlives : ¬ dies s f := fun hd => hd.elim hjoining fun ⟨hst, hdead⟩ => absurd (hsuspect hst) (Nat.not_lt.mpr hdead)
    have k := handedMiss_still hlives
    exact ⟨k.active, k.epoch⟩

end Sys2Proof.FirewallHealth

/-! A PULSE of an UP firewall while nothing waits on it (R125, R133 to R137): one ROLE frame, and a role mismatch counted. -/

namespace Sys2Proof.FirewallHealth

open Sys2Proof Sys2Proof.Machine Sys2Proof.Laws Sys2Proof.SessionTable Sys2Proof.FramePath Sys2Proof.MirrorChannel

variable {s t : State} {f : Fw} {c : Ccf}

/-! ## What the health states leave of a ROLE frame (R134, R135) -/

/-- From `s` to `t` nothing moves that roles and readiness are derived from. -/
structure SameRoles (s t : State) : Prop where
  role : t.role = s.role
  mirror : t.mirror = s.mirror
  states : ∀ g, (t.fw g).state = (s.fw g).state

theorem SameRoles.usable (h : SameRoles s t) (g : Fw) : t.usable g = s.usable g := by
  rw [State.usable, State.usable, h.states]

theorem SameRoles.assigned (h : SameRoles s t) (g : Fw) : t.assigned g = s.assigned g := by
  rw [State.assigned, State.assigned, h.role, h.usable]

theorem SameRoles.ready (h : SameRoles s t) : t.ready = s.ready := by
  simp only [State.ready, State.standby, h.role, h.mirror, h.usable, h.states]

theorem SameRoles.rolePayload (h : SameRoles s t) (g : Fw) : t.rolePayload g = s.rolePayload g := by
  simp only [State.rolePayload, h.role, h.ready, h.assigned, h.states]

/-! ## Nothing waits on the PULSE (R110, R147, R148) -/

/-- Neither preemption is on, the fitness dwell is stopped, and no STALLED mirror waits to be restarted. -/
structure Calm (s : State) : Prop where
  preempt : s.param .preemptPreferred = 0
  fitness : s.param .fitnessPreemption = 0
  dwell : s.role.dwell = .stopped
  mirror : s.mirror.state ≠ .stalled

/-- R147: with fitness preemption off the condition holds at no evaluation, so that a stopped dwell stays. -/
theorem Calm.evalFitness (h : Calm s) : s.evalFitness = s := by
  have hfails : s.fitnessHolds = false := by
    unfold State.fitnessHolds
    cases s.standby <;> simp [h.fitness]
  have hdwell : s.nextDwell = s.role.dwell := by simp [State.nextDwell, hfails, h.dwell]
  rw [State.evalFitness, hdwell]

/-- R147, R148: a fitness is taken, and nothing comes of it. -/
theorem Calm.fitnessTaken (h : Calm s) : s.fitnessTaken = s := by
  have hpreferred : s.preferredStandby = false := by simp [State.preferredStandby, h.preempt]
  rw [State.fitnessTaken, h.evalFitness]
  exact preemptTest_of_not (.inr (.inr (.inr ⟨hpreferred, by rw [h.dwell]; decide⟩)))

theorem Calm.mirrorPulse (h : Calm s) (f : Fw) : s.mirrorPulse f = s := if_neg fun hs => h.mirror hs.1

theorem Calm.of_sends (h : Calm s) (k : Sends s t) : Calm t := by
  refine ⟨?_, ?_, ?_, ?_⟩
  · simp only [State.param, k.params]; exact h.preempt
  · simp only [State.param, k.params]; exact h.fitness
  · rw [k.role]; exact h.dwell
  · rw [k.mirror]; exact h.mirror

/-! ## The answer (R125 steps 5 and 6) -/

/-- R125, R126: the record of a PULSE is all that is kept of an UP firewall that stays UP. -/
theorem pulsedRecord_of_up (hup : (s.fw f).state = .up) (hfit : fitnessIn c ≠ 0) (hlinks : s.linksUp f = true) :
    s.pulsedRecord f c = (s.fw f).recordPulse c (s.param .beatPeriod) := by
  have hst : ((s.fw f).recordPulse c (s.param .beatPeriod)).state = .up := hup
  have hf : ((s.fw f).recordPulse c (s.param .beatPeriod)).fitness ≠ 0 := hfit
  simp [State.pulsedRecord, HealthRecord.judgePulse, HealthRecord.fitPulse, hlinks, hst, hf]

/-- R131: a firewall that stays UP raises nothing. -/
theorem pulseMoved_of_up (hup : (s.fw f).state = .up) (hst : (s.pulsedRecord f c).state = .up) :
    pulseMoved s f c = s.setFw f (s.pulsedRecord f c) := by
  simp [pulseMoved, State.moveHealth, State.raiseHealth, hup, hst]

/-- R125: nothing comes of the hand-offs of step 4 while nothing waits on the PULSE. -/
theorem pulseFrom_of_calm (hcalm : Calm s) (hst : (s.pulsedRecord f c).state = (s.fw f).state) :
    s.pulseFrom f c = pulseAnswered s f c := by
  have kset : Calm (s.setFw f (s.pulsedRecord f c)) := ⟨hcalm.preempt, hcalm.fitness, hcalm.dwell, hcalm.mirror⟩
  have k : Calm (pulseAnswered s f c) := kset.of_sends (pulseAnswered_fromRecord s f c)
  have htaken : pulseTaken s f c = pulseAnswered s f c := by
    refine (asEvent_unmoved ?_ ?_ ?_).trans k.fitnessTaken <;> rw [k.fitnessTaken]
  have hsame : ((pulseTaken s f c).fw f).state = (s.fw f).state := by rw [pulseTaken_fw, if_pos rfl, hst]
  rw [pulseFrom_eq, handIfChanged_of_same hsame, htaken, k.mirrorPulse]

theorem countMismatch_eq (s : State) (f : Fw) : s.countMismatch f = { s with counters := (s.countMismatch f).counters } := by
  unfold State.countMismatch
  split <;> rfl

theorem countMismatch_count (s : State) (f : Fw) {k : Counter} (hk : k ≠ .roleMismatch) :
    (s.countMismatch f).count k = s.count k := by
  unfold State.countMismatch
  split
  · rfl
  · rw [count_inc, if_neg hk]

theorem countMismatch_roleMismatch (s : State) (f : Fw) : (s.countMismatch f).count .roleMismatch =
    if (s.fw f).claimed = s.assigned f then s.count .roleMismatch
    else min (s.count .roleMismatch + 1) Config.counterMax := by
  unfold State.countMismatch
  split
  · rfl
  · rw [count_inc, if_pos rfl]

/-- R187, R188: a claimed role is the one its code names. -/
theorem roleOf_eq_iff {n : Nat} (hn : n ≤ 2) (r : RoleName) : roleOf n = r ↔ n = r.code := by
  interval_cases n <;> cases r <;> decide

/-- R187: the body check of a PULSE bounds its claimed role. -/
theorem claimed_le_of_goodCcf {fr : Frame} (hg : goodCcf .pulse fr = true) : (byteAt (readCcf fr).payload 0).toNat ≤ 2 := by
  simp only [goodCcf, bodyOk, Bool.and_eq_true, decide_eq_true_eq] at hg
  obtain ⟨-, ⟨-, hrole⟩, -⟩ := hg
  exact hrole

/-- R125 steps 1 to 3: the record of a PULSE kept, its firewall's state as it was. -/
def recorded (s : State) (f : Fw) (c : Ccf) : State := s.setFw f ((s.fw f).recordPulse c (s.param .beatPeriod))

/-- R125 step 5: the claimed role of the record compared. -/
def compared (s : State) (f : Fw) (c : Ccf) : State := (recorded s f c).countMismatch f

theorem recorded_sameRoles (s : State) (f : Fw) (c : Ccf) : SameRoles s (recorded s f c) := by
  refine ⟨rfl, rfl, fun g => ?_⟩
  rw [recorded, fw_setFw]
  split
  · next h => rw [h]; rfl
  · rfl

theorem compared_eq (s : State) (f : Fw) (c : Ccf) :
    compared s f c = { recorded s f c with counters := (compared s f c).counters } := countMismatch_eq _ f

theorem compared_fw (s : State) (f : Fw) (c : Ccf) : (compared s f c).fw f = (s.fw f).recordPulse c (s.param .beatPeriod) := by
  rw [compared_eq]
  exact (fw_setFw s f f _).trans (if_pos rfl)

theorem compared_ports (s : State) (f : Fw) (c : Ccf) : (compared s f c).ports = s.ports := by rw [compared_eq]; rfl

theorem compared_unitAddress (s : State) (f : Fw) (c : Ccf) : (compared s f c).unitAddress = s.unitAddress := by
  rw [compared_eq]; rfl

theorem compared_sameRoles (s : State) (f : Fw) (c : Ccf) : SameRoles s (compared s f c) := by
  obtain ⟨hrole, hmirror, hstates⟩ := recorded_sameRoles s f c
  rw [compared_eq]
  exact ⟨hrole, hmirror, hstates⟩

/-- R125, R134: the claimed role of a PULSE is compared with the assigned role. -/
theorem compared_roleMismatch (s : State) (f : Fw) {c : Ccf} (hrole : (byteAt c.payload 0).toNat ≤ 2) :
    (compared s f c).count .roleMismatch =
      if (byteAt c.payload 0).toNat = (s.assigned f).code then s.count .roleMismatch
      else min (s.count .roleMismatch + 1) Config.counterMax := by
  have hclaimed : ((recorded s f c).fw f).claimed = roleOf (byteAt c.payload 0).toNat := by
    simp [recorded, HealthRecord.recordPulse]
  have hcount : (recorded s f c).count .roleMismatch = s.count .roleMismatch := rfl
  simp only [compared, countMismatch_roleMismatch, hclaimed, (recorded_sameRoles s f c).assigned, roleOf_eq_iff hrole, hcount]

theorem compared_count (s : State) (f : Fw) (c : Ccf) {k : Counter} (hk : k ≠ .roleMismatch) :
    (compared s f c).count k = s.count k := countMismatch_count _ f hk

/-- R133, R135: the ROLE frame that answers a PULSE. -/
def roleReply (s : State) (f : Fw) (c : Ccf) : Frame :=
  ccfFrame c.source s.unitAddress .role 0#8 0#8 c.seq (s.rolePayload f)

/-- R125, R135: a PULSE of a firewall that stays UP is answered to its source, with its sequence. -/
theorem pulseAnswered_of_up (hup : (s.fw f).state = .up) (hfit : fitnessIn c ≠ 0) (hlinks : s.linksUp f = true)
    (hroom : s.hasRoom f.inPort 1) (hgroup : isGroup c.source = false) :
    pulseAnswered s f c = (compared s f c).queued f.inPort (roleReply s f c) := by
  have hrec := pulsedRecord_of_up hup hfit hlinks
  have hmoved : pulseMoved s f c = recorded s f c := by
    rw [pulseMoved_of_up hup (by rw [hrec]; exact hup), hrec, recorded]
  have hlearned : ((s.fw f).recordPulse c (s.param .beatPeriod)).learned = c.source := by
    simp [HealthRecord.recordPulse, hgroup]
  have hsent : (compared s f c).sendRole f = (compared s f c).handTx f.inPort (roleReply s f c) := by
    rw [State.sendRole, State.sendTo, (compared_sameRoles s f c).rolePayload, compared_unitAddress, compared_fw, hlearned]
    rfl
  have hport : (compared s f c).port f.inPort = s.port f.inPort := by simp only [State.port, compared_ports]
  rw [pulseAnswered, hmoved, ← compared, hsent]
  exact handTx_of_hasRoom (hasRoom_congr hport hroom)

theorem queued_ports_congr (h : t.ports = s.ports) (p : Port) (x : Frame) : (t.queued p x).ports = (s.queued p x).ports := by
  simp only [State.queued, State.setPort, State.port, h]

/-- Settles O36: while nothing waits on the PULSE it comes to the record, the comparison of the claimed role and the ROLE frame, and
each of them moves a part of the state of its own. -/
theorem pulseOfAnUpFirewallIsAnswered : Obligations.PulseOfAnUpFirewallIsAnswered := by
  intro f fr s hg hfit hup hroom hout hpreempt hfitness hdwell hmirror hgroup
  let v := s.inc (.framesIn f.inPort)
  let c := readCcf fr
  have hlinks : v.linksUp f = true := (linksUp_iff v f).mpr ⟨hroom.1, hout⟩
  have hrec : v.pulsedRecord f c = _ := pulsedRecord_of_up hup hfit hlinks
  have hcalm : Calm v := ⟨hpreempt, hfitness, hdwell, hmirror⟩
  have hfrom : v.pulseFrom f c = (compared v f c).queued f.inPort (roleReply v f c) :=
    (pulseFrom_of_calm hcalm (by rw [hrec]; rfl)).trans (pulseAnswered_of_up hup hfit hlinks hroom hgroup)
  have hin : ∀ k, k ≠ .framesIn f.inPort → v.count k = s.count k := fun k hk => (count_inc s k _).trans (if_neg hk)
  refine ⟨(compared v f c).queued f.inPort (roleReply v f c), (exec_pulse f hg).trans (congrArg Host.Outcome.next hfrom), ?_, ?_, ?_,
    fun k hk hkin => ?_⟩
  · rw [compared_eq]; rfl
  · exact queued_ports_congr (compared_ports v f c) _ _
  · refine (compared_roleMismatch v f (claimed_le_of_goodCcf hg)).trans ?_
    rw [hin .roleMismatch nofun]
    rfl
  · exact (compared_count v f c hk).trans (hin k hkin)

end Sys2Proof.FirewallHealth

/-! The active role and the epoch over one step (R138, R153, R161): only a move of the active role touches the epoch, and no
command makes two. -/

namespace Sys2Proof.Roles

open Sys2Proof Sys2Proof.Machine Sys2Proof.Laws Sys2Proof.SessionTable

/-- From `s` to `t` the active firewall and the epoch stay. -/
def Rests (s t : State) : Prop := t.role.active = s.role.active ∧ t.role.epoch = s.role.epoch

/-- From `s` to `t` the active firewall and the epoch stay, or the active role has moved once and the epoch has counted it. -/
def MovesOnce (s t : State) : Prop :=
  Rests s t ∨ (t.role.active = s.role.active.other ∧ t.role.epoch = s.role.epoch + 1)

variable {s t u : State}

theorem rests_of_role (h : t.role = s.role) : Rests s t := ⟨by rw [h], by rw [h]⟩

theorem Rests.refl (s : State) : Rests s s := rests_of_role rfl

theorem Rests.trans (h : Rests s t) (k : Rests t u) : Rests s u := ⟨k.1.trans h.1, k.2.trans h.2⟩

theorem rests_of_still (h : Still s t) : Rests s t := ⟨h.active, h.epoch⟩

theorem rests_of_held (h : Held s t) : Rests s t := rests_of_still h.toStill

theorem MovesOnce.refl (s : State) : MovesOnce s s := .inl (.refl s)

theorem movesOnce_of_moved (h : Moved s t) : MovesOnce s t := h.moves

theorem MovesOnce.then (h : MovesOnce s t) (k : Rests t u) : MovesOnce s u :=
  h.imp (fun m => m.trans k) (fun m => ⟨k.1.trans m.1, k.2.trans m.2⟩)

theorem Rests.then (h : Rests s t) (k : MovesOnce t u) : MovesOnce s u := by
  obtain ⟨ha, he⟩ := h
  unfold MovesOnce Rests at k ⊢
  rwa [ha, he] at k

theorem Rests.ite {c : Prop} [Decidable c] {a b : State} (ha : Rests s a) (hb : Rests s b) :
    Rests s (if c then a else b) := by split <;> assumption

theorem MovesOnce.ite {c : Prop} [Decidable c] {a b : State} (ha : MovesOnce s a) (hb : MovesOnce s b) :
    MovesOnce s (if c then a else b) := by split <;> assumption

theorem rests_asEvent {body : State → State} (h : Rests s (body s)) : Rests s (s.asEvent body) :=
  h.trans (rests_of_held (sendRoleChanges_held _ _ _ _))

theorem movesOnce_asEvent {body : State → State} (h : MovesOnce s (body s)) : MovesOnce s (s.asEvent body) :=
  h.then (rests_of_held (sendRoleChanges_held _ _ _ _))

/-! ## Health and links -/

theorem rests_moveHealth (s : State) (f : Fw) (h : HealthRecord) : Rests s (s.moveHealth f h) :=
  (rests_of_role (t := s.setFw f h) rfl).trans (rests_of_held (raiseHealth_held _ _ _ _))

/-- R125: a PULSE hands over a fitness, which moves nothing, and at most one change of health. -/
theorem movesOnce_pulseFrom (s : State) (f : Fw) (c : Ccf) : MovesOnce s (s.pulseFrom f c) := by
  unfold State.pulseFrom
  refine MovesOnce.then (Rests.then ?_ (movesOnce_of_moved (handIfChanged_moved _ s f))) (rests_of_still (mirrorPulse_still _ f))
  refine Rests.trans ?_ (rests_asEvent (rests_of_held (fitnessTaken_held _)))
  exact ((rests_moveHealth s f _).trans (rests_of_held (countMismatch_held _ f))).trans (rests_of_held (sendRole_held _ f))

theorem movesOnce_pulseExpiry (s : State) (f : Fw) : MovesOnce s (s.pulseExpiry f) :=
  .ite ((rests_moveHealth s f _).then (movesOnce_of_moved (handIfChanged_moved _ s f))) (.refl s)

theorem movesOnce_linkLoss (s : State) (f : Fw) : MovesOnce s (s.linkLoss f) := by
  have k : Rests s ((s.setFw f ((s.fw f).loseLink (s.param .beatPeriod))).raiseFwDown f .link) :=
    (rests_of_role (t := s.setFw f _) rfl).trans (rests_of_held (raise_held _ _ _))
  exact .ite (.inl k) (k.then (movesOnce_of_moved (handChange_moved _ _ _ _ _)))

theorem movesOnce_linkFall (s : State) (p : Port) : MovesOnce s (s.linkFall p) := by
  have k : Rests s ((s.dropLink p).raisePortLink p .down) :=
    (rests_of_role (t := s.dropLink p) rfl).trans (rests_of_held (raise_held _ _ _))
  unfold State.linkFall
  refine .ite (.refl s) ?_
  dsimp only
  split
  · exact k.then (movesOnce_linkLoss _ _)
  · exact .inl k

theorem rests_linkRise (s : State) (p : Port) : Rests s (s.linkRise p) :=
  .ite (.refl s) ((rests_of_role (t := s.setPort p _) rfl).trans (rests_of_held (raise_held _ _ _)))

theorem rests_transmit (s : State) (p : Port) : Rests s (s.transmit p) := by
  unfold State.transmit
  split <;> exact rests_of_role rfl

/-! ## Frames that arrive -/

theorem movesOnce_bySender (s : State) (p : Port) {act : Fw → State} (h : ∀ f, MovesOnce s (act f)) :
    MovesOnce s (s.bySender p act) := by
  unfold State.bySender
  split
  · exact h _
  · exact .refl s

theorem rests_queueRequest (s : State) (q : Request) : Rests s (s.queueRequest q) := .ite (rests_of_role rfl) (rests_of_role rfl)

theorem rests_syncAckFrom (s : State) (c : Ccf) : Rests s (s.syncAckFrom c) :=
  rests_asEvent (rests_of_still ((syncAck_still s _ _).trans (finish_still _)))

theorem movesOnce_toOwner (s : State) (p : Port) (k : CcfKind) (c : Ccf) : MovesOnce s (s.toOwner p k c) := by
  cases k
  case pulse => exact movesOnce_bySender s p (fun f => movesOnce_pulseFrom s f c)
  case declare => exact movesOnce_bySender s p (fun f => movesOnce_of_moved (declareFrom_moved s f c))
  case flushed => exact movesOnce_bySender s p (fun f => movesOnce_of_moved (flushedFrom_moved s f c))
  case syncAck => exact .inl (rests_syncAckFrom s c)
  case query => exact .inl (rests_queueRequest s _)
  all_goals exact .refl s

theorem movesOnce_ccfFrameIn (s : State) (p : Port) (f : Frame) : MovesOnce s (s.ccfFrameIn p f) := by
  unfold State.ccfFrameIn State.takeCcf
  refine .ite (.ite (.inl (rests_of_role rfl)) ?_) (.inl (rests_of_role rfl))
  split
  · exact movesOnce_toOwner s p _ _
  · exact .inl (rests_of_role rfl)

theorem movesOnce_receive (s : State) (p : Port) (f : Frame) : MovesOnce s (s.receive p f) := by
  have k : Rests s (s.inc (.framesIn p)) := rests_of_role rfl
  exact .ite (.ite (k.then (movesOnce_ccfFrameIn _ p f)) (.inl (k.trans (rests_of_still (dataFrame_still _ p f)))))
    (.inl (rests_of_role rfl))

/-! ## Requests -/

/-- A request rests when the rule that judges it does: the REPLY is a frame handed over. -/
theorem rests_serve (s : State) (mine : Byte → Bool) {judge : State → Request → Answer}
    (h : ∀ v q, Rests v (judge v q).state) : Rests s (s.serve mine judge) := by
  unfold State.serve State.headFor
  cases s.requests with
  | nil => exact .refl s
  | cons q rest =>
    by_cases hm : (mine q.code && s.canServe q.port) = true
    · simp only [hm, if_true]
      have k : Rests s { s with requests := rest } := rests_of_role rfl
      exact (k.trans (h _ q)).trans (rests_of_held (handTx_held _ _ _))
    · simp only [hm]
      exact .refl s

theorem rests_judgeRead (v : State) (q : Request) (n : Nat) {body : State → List Byte → Answer}
    (h : ∀ args, Rests v (body v args).state) : Rests v (v.judgeRead q n body).state := by
  unfold State.judgeRead
  split
  · exact .refl v
  · split
    · exact .refl v
    · exact h q.args

theorem rests_judgeWrite (v : State) (q : Request) (n : Nat) {body : State → List Byte → Answer}
    (h : ∀ args, Rests v (body v args).state) : Rests v (v.judgeWrite q n body).state := by
  unfold State.judgeWrite
  split
  · exact .refl v
  · split
    · exact .refl v
    · exact h q.args

theorem getParamOf_role (v : State) (args : List Byte) : (v.getParamOf args).state.role = v.role := by
  unfold State.getParamOf
  split <;> rfl

theorem setParamOf_role (v : State) (args : List Byte) : (v.setParamOf args).state.role = v.role := by
  unfold State.setParamOf
  split
  · rfl
  · dsimp only
    split
    · rfl
    · split
      · rfl
      · split <;> rfl

theorem getEntryOf_role (v : State) (args : List Byte) : (v.getEntryOf args).state.role = v.role := by
  unfold State.getEntryOf
  split <;> rfl

theorem findEntryOf_role (v : State) (args : List Byte) : (v.findEntryOf args).state.role = v.role := by
  unfold State.findEntryOf
  split
  · rfl
  · split <;> rfl

theorem listOf_role (v : State) (args : List Byte) : (v.listOf args).state.role = v.role := by
  unfold State.listOf
  dsimp only
  split <;> rfl

theorem countersOf_role (v : State) (args : List Byte) : (v.countersOf args).state.role = v.role := by
  unfold State.countersOf
  dsimp only
  split <;> rfl

theorem setPrefixOf_role (v : State) (args : List Byte) : (v.setPrefixOf args).state.role = v.role := by
  unfold State.setPrefixOf
  split
  · rfl
  · split
    · split <;> rfl
    · rfl

theorem getPrefixOf_role (v : State) (args : List Byte) : (v.getPrefixOf args).state.role = v.role := by
  unfold State.getPrefixOf
  split <;> rfl

theorem rests_judgeCounters (v : State) (q : Request) : Rests v (v.judgeCounters q).state := by
  have k := fun args => rests_of_role (countersOf_role v args)
  unfold State.judgeCounters
  split
  · exact rests_judgeWrite v q 1 k
  · exact rests_judgeRead v q 1 k

theorem rests_resyncOf (v : State) : Rests v v.resyncOf.state := by
  unfold State.resyncOf
  split
  · exact .refl v
  · split
    · exact .refl v
    · exact rests_of_still (walkStart_still v _)

theorem rests_purgeOf (v : State) (args : List Byte) : Rests v (v.purgeOf args).state := by
  unfold State.purgeOf
  dsimp only
  split
  · exact rests_of_still (purgeEntry_still v _)
  · exact .refl v

theorem rests_tableReset (v : State) : Rests v v.tableReset := by
  have k : Rests v (emptied v) := rests_of_role rfl
  cases ht : v.mirror.target with
  | none => rw [tableReset_of_none ht]; exact k
  | some f => rw [tableReset_of_target ht]; exact k.trans (rests_of_still (walkStart_still _ f))

theorem rests_tableResetOf (v : State) : Rests v v.tableResetOf.state := by
  unfold State.tableResetOf
  split
  · exact .refl v
  · exact rests_tableReset v

/-! ## Timers -/

theorem rests_restartExpiry (s : State) : Rests s s.restartExpiry := by
  unfold State.restartExpiry
  split <;> exact rests_of_role rfl

theorem movesOnce_startupExpiry (s : State) : MovesOnce s s.startupExpiry := by
  unfold State.startupExpiry
  split
  · have k : Rests s { s with role := { s.role with startup := .over } } := ⟨rfl, rfl⟩
    exact movesOnce_asEvent (k.then (movesOnce_of_moved (startupTest_moved _)))
  · exact .refl s

theorem rests_holdDownEnds (s : State) : Rests s s.holdDownEnds := by
  have k : Rests s { s with role := { s.role with holdDown := .stopped } } := ⟨rfl, rfl⟩
  exact .ite (rests_asEvent (k.trans (rests_of_held (preemptTest_held _)))) (.refl s)

theorem rests_dwellEnds (s : State) : Rests s s.dwellEnds := by
  unfold State.dwellEnds
  split
  · have k : Rests s { s with role := { s.role with dwell := .complete } } := ⟨rfl, rfl⟩
    exact rests_asEvent (k.trans (rests_of_held (preemptTest_held _)))
  · exact .refl s
  · exact .refl s

theorem movesOnce_quiesceEnds (s : State) : MovesOnce s s.quiesceEnds := by
  have k : Rests s { s with role := { s.role with quiesce := .stopped } } := ⟨rfl, rfl⟩
  exact .ite (movesOnce_asEvent (.ite (k.then (movesOnce_of_moved (makeTransfer_moved _))) (.inl k))) (.refl s)

theorem rests_lateEnds (s : State) : Rests s s.lateEnds := .ite ⟨rfl, rfl⟩ (.refl s)

theorem rests_limitEnds (s : State) : Rests s s.limitEnds := by
  have k : Rests s { s with role := { s.role with cutLimit := .stopped } } := ⟨rfl, rfl⟩
  exact .ite (rests_asEvent (k.trans (rests_of_still ((releaseAll_held _).toStill.trans (finish_still _))))) (.refl s)

/-! ## The step -/

/-- Every command but RESET moves the active role once at most, and the epoch counts the move. -/
theorem exec_movesOnce {c : Instr} (hc : c ≠ .reset) (h : exec c s = .next t) : MovesOnce s t := by
  cases c <;> cases h
  case reset => exact absurd rfl hc
  case rxError p f => exact movesOnce_receive s p f
  case dataFrame p f => exact movesOnce_receive s p f
  case pulse p f => exact movesOnce_receive s p f
  case declare p f => exact movesOnce_receive s p f
  case flushed p f => exact movesOnce_receive s p f
  case syncAck p f => exact movesOnce_receive s p f
  case query p f => exact movesOnce_receive s p f
  case refusedCcf p f => exact movesOnce_receive s p f
  case linkDown p => exact movesOnce_linkFall s p
  case pulseTimerExpiry f => exact movesOnce_pulseExpiry s f
  case startupWaitExpiry => exact movesOnce_startupExpiry s
  case quiesceTimerExpiry => exact movesOnce_quiesceEnds s
  all_goals left
  case linkUp p => exact rests_linkRise s p
  case transmitFrame p => exact rests_transmit s p
  case releaseTurn => exact rests_of_still (releaseEvent_still s)
  case packBatch => exact rests_of_held (packBatch_held s)
  case walkCursorStep => exact rests_of_still (walkEvent_still s)
  case classSweepExpiry c => exact rests_asEvent (rests_of_still ((classSweep_still s c).trans (finish_still _)))
  case tentativeSweepExpiry => exact rests_of_still (tentativeSweep_still s)
  case confirmSweepExpiry => exact rests_asEvent (rests_of_still ((confirmSweep_held s).toStill.trans (finish_still _)))
  case parkSweepExpiry => exact rests_asEvent (rests_of_still ((parkSweep_held s).toStill.trans (finish_still _)))
  case restartHoldExpiry => exact rests_restartExpiry s
  case holdDownExpiry => exact rests_holdDownEnds s
  case fitnessDwellExpiry => exact rests_dwellEnds s
  case lateWindowExpiry => exact rests_lateEnds s
  case cutoverLimitExpiry => exact rests_limitEnds s
  case getParam => exact rests_serve s _ (fun v q => rests_judgeRead v q 1 (fun a => rests_of_role (getParamOf_role v a)))
  case setParam => exact rests_serve s _ (fun v q => rests_judgeWrite v q 1 (fun a => rests_of_role (setParamOf_role v a)))
  case getStatus => exact rests_serve s _ (fun v q => rests_judgeRead v q 0 (fun _ => rests_of_held (clearLevels_held v)))
  case getEntry => exact rests_serve s _ (fun v q => rests_judgeRead v q 2 (fun a => rests_of_role (getEntryOf_role v a)))
  case findEntry => exact rests_serve s _ (fun v q => rests_judgeRead v q 3 (fun a => rests_of_role (findEntryOf_role v a)))
  case list => exact rests_serve s _ (fun v q => rests_judgeRead v q 6 (fun a => rests_of_role (listOf_role v a)))
  case getCounters => exact rests_serve s _ rests_judgeCounters
  case getEvents => exact rests_serve s _ (fun v q => rests_judgeRead v q 0 (fun _ => .refl v))
  case clearEvents => exact rests_serve s _ (fun v q => rests_judgeWrite v q 2 (fun _ => rests_of_role rfl))
  case setPrefix => exact rests_serve s _ (fun v q => rests_judgeWrite v q 5 (fun a => rests_of_role (setPrefixOf_role v a)))
  case getPrefix => exact rests_serve s _ (fun v q => rests_judgeRead v q 1 (fun a => rests_of_role (getPrefixOf_role v a)))
  case switchover => exact rests_serve s _ (fun v q => rests_judgeWrite v q 1
      (fun _ => rests_of_still (judgeSwitchover_still v _)))
  case resync => exact rests_serve s _ (fun v q => rests_judgeWrite v q 0 (fun _ => rests_resyncOf v))
  case purge => exact rests_serve s _ (fun v q => rests_judgeWrite v q 2 (rests_purgeOf v))
  case tableReset => exact rests_serve s _ (fun v q => rests_judgeWrite v q 0 (fun _ => rests_tableResetOf v))
  case unknownRequest => exact rests_serve s _ (fun v _ => .refl v)

/-- Settles O7: each command makes at most one operation that may move the active role. -/
theorem epochCountsTheMovesOfTheActiveRole : Obligations.EpochCountsTheMovesOfTheActiveRole :=
  fun _ _ _ hc h => exec_movesOnce hc h

end Sys2Proof.Roles

/-! The expiry of the startup wait (R139, R142), and what an unplanned cutover from phase NONE comes to (R153). -/

namespace Sys2Proof.Roles

open Sys2Proof Sys2Proof.Machine Sys2Proof.Laws Sys2Proof.SessionTable Sys2Proof.Cutover Sys2Proof.MirrorChannel

variable {s t u : State}

/-! ## An unplanned TRANSFER (R153) -/

theorem recordTransfer_unplanned (hk : s.role.kind ≠ some .planned) :
    s.recordTransfer.count .cutoversUnplanned = min (s.count .cutoversUnplanned + 1) Config.counterMax := by
  rw [State.recordTransfer, if_neg hk, count_inc, if_pos rfl]
  rfl

/-- R153 step 9: a cutover that is not planned is counted, unless the counter has saturated. -/
theorem makeTransfer_unplanned (hk : s.role.kind ≠ some .planned) (hc : s.count .cutoversUnplanned < Config.counterMax) :
    s.count .cutoversUnplanned < s.makeTransfer.count .cutoversUnplanned := by
  have hbefore : Kept s (swept s).markEntries :=
    (moveActive_moved s).toKept.trans ((freeAll_still _ _).trans (markEntries_held _).toStill).toKept
  have hafter : Kept (swept s).markEntries.recordTransfer s.makeTransfer :=
    ((toSettle_held _).toStill.trans (finish_still _)).toKept
  have hkind : (swept s).markEntries.role.kind ≠ some .planned := by rw [(swept_marked_onward s).role]; exact hk
  have hcount := recordTransfer_unplanned hkind
  obtain ⟨hb, -⟩ := hbefore.counts .cutoversUnplanned hc.le
  obtain ⟨ha, -⟩ := hafter.counts .cutoversUnplanned (by omega)
  omega

/-- R153: a TRANSFER event, whatever began it. -/
theorem makeTransfer_transfers (s : State) : s.transferredTo s.makeTransfer s.role.active.other := by
  obtain ⟨h, -⟩ := makeTransfer_endsQuiesce s
  exact h

/-- R153: an unplanned cutover moves the active role to the other firewall. -/
theorem unplanned_transfers (s : State) (r : CutReason) : s.transferredTo (s.unplanned r) s.role.active.other := by
  have hrole : (started s r).role = (s.openCutover .unplanned r).role := (started_sends s r).role
  have h : (started s r).transferredTo (s.unplanned r) (started s r).role.active.other := makeTransfer_transfers _
  rw [hrole] at h
  exact transferredTo_of_same h (started_table s r) (started_decl s r) (started_params s r) (by rw [hrole]; rfl)

theorem unplanned_counted (s : State) (r : CutReason) (hc : s.count .cutoversUnplanned < Config.counterMax) :
    s.count .cutoversUnplanned < (s.unplanned r).count .cutoversUnplanned := by
  have hrole : (started s r).role = (s.openCutover .unplanned r).role := (started_sends s r).role
  have hcount : (started s r).count .cutoversUnplanned = s.count .cutoversUnplanned := raise_count _ _ _ (by decide)
  rw [unplanned_eq, ← hcount]
  exact makeTransfer_unplanned (by rw [hrole]; nofun) (by rwa [hcount])

/-- `State.transferredTo` reads nothing that frames handed over change. -/
theorem transferredTo_of_sends {d : Fw} (h : s.transferredTo t d) (k : Sends t u) : s.transferredTo u d := by
  simp only [State.transferredTo, State.movedTo, State.phase, State.entry?, k.role, k.decl, k.table] at h ⊢
  exact h

/-! ## The startup wait (R139, R142) -/

/-- R139: the startup wait over, its test not yet made. -/
def startupOver (s : State) : State := { s with role := { s.role with startup := .over } }

theorem startupExpiry_of_over (h : s.role.startup = .over) : s.startupExpiry = s := by simp [State.startupExpiry, h]

theorem startupExpiry_of_running (h : s.role.startup ≠ .over) :
    s.startupExpiry = s.asEvent (fun v => (startupOver v).startupTest) := by
  unfold State.startupExpiry
  split
  · rfl
  · rename_i hover; exact absurd hover h

/-- R142: what the startup test asks. -/
def startsOver (s : State) : Prop :=
  s.role.phase = .none ∧ (s.fw s.role.active).state ≠ .up ∧ (s.fw s.role.active.other).state = .up

theorem startupTest_of_met (h : startsOver s) : (startupOver s).startupTest = (startupOver s).unplanned .startup := if_pos h

theorem startupTest_of_unmet (h : ¬ startsOver s) : (startupOver s).startupTest = startupOver s := if_neg h

/-- R142: the startup test met moves the active role, as one unplanned cutover. -/
theorem startupExpiry_transfers (h : s.role.startup ≠ .over) (hm : startsOver s) :
    s.transferredTo s.startupExpiry s.role.active.other ∧
      (s.count .cutoversUnplanned < Config.counterMax →
        s.count .cutoversUnplanned < s.startupExpiry.count .cutoversUnplanned) := by
  have hmove : s.transferredTo ((startupOver s).unplanned .startup) s.role.active.other :=
    transferredTo_of_same (unplanned_transfers (startupOver s) .startup) rfl rfl rfl rfl
  rw [startupExpiry_of_running h, State.asEvent, startupTest_of_met hm]
  refine ⟨transferredTo_of_sends hmove (sendRoleChanges_sends _ _ _ _), fun hc => ?_⟩
  rw [sendRoleChanges_count _ _ _ _ (by decide)]
  exact unplanned_counted (startupOver s) .startup hc

theorem startupExpiry_rests (h : s.role.startup ≠ .over) (hm : ¬ startsOver s) : s.startupExpiry = startupOver s := by
  have htest := startupTest_of_unmet hm
  rw [startupExpiry_of_running h, asEvent_unmoved] <;> rw [htest] <;> rfl

/-- Settles O43: the wait is over, and the startup test is met or not. -/
theorem startupWaitEndsInTheStartupTest : Obligations.StartupWaitEndsInTheStartupTest := by
  refine fun s => ⟨fun hover => congrArg Host.Outcome.next (startupExpiry_of_over hover), fun hrun => ⟨fun hp ha ho => ?_,
    fun hn => ?_⟩⟩
  · exact ⟨_, rfl, startupExpiry_transfers hrun ⟨hp, ha, ho⟩⟩
  · refine congrArg Host.Outcome.next (startupExpiry_rests hrun fun ⟨hp, ha, ho⟩ => ?_)
    rcases hn with hn | hn | hn
    · exact hn hp
    · exact ha hn
    · exact hn ho

end Sys2Proof.Roles

/-! The cutover limit (R139, R155, R159): an expiry clears every mark, and no test that ends its event sets one again. -/

namespace Sys2Proof.Roles

open Sys2Proof Sys2Proof.Machine Sys2Proof.Laws Sys2Proof.SessionTable Sys2Proof.Cutover Sys2Proof.FramePath
  Sys2Proof.MirrorChannel

variable {s t u : State}

/-! ## The pre-push sets no mark (R151) -/

theorem lanePlace_isMarked (s : State) (h : Nat) (ln : Lane) (b : Bool) (k : RecKind) (g : Nat) :
    (s.lanePlace h ln b k).isMarked g = s.isMarked g := by
  by_cases hg : g = h
  · subst hg
    refine isMarked_congr ?_
    rw [lanePlace_self, Option.map_map]
    exact Option.map_congr fun e _ => marked_mapMirror e _
  · exact isMarked_of_same (lanePlace_others s h ln b k g hg)

theorem toUrgentTail_isMarked (s : State) (h g : Nat) : (s.toUrgentTail h).isMarked g = s.isMarked g := by
  unfold State.toUrgentTail
  split
  · exact lanePlace_isMarked s h _ _ _ g
  · rfl

theorem prePushOne_isMarked (s : State) (h g : Nat) : (s.prePushOne h).isMarked g = s.isMarked g := by
  unfold State.prePushOne
  split
  · rfl
  · split
    · rfl
    · split
      · rfl
      · split
        · exact toUrgentTail_isMarked s h g
        · rfl
        · split
          · rfl
          · split
            · split
              · exact lanePlace_isMarked s h _ _ _ g
              · rfl
            · exact lanePlace_isMarked s h _ _ _ g
    · split
      · exact toUrgentTail_isMarked s h g
      · rfl

theorem prePush_isMarked (s : State) (g : Nat) : s.prePush.isMarked g = s.isMarked g := by
  have hfold : ∀ (hs : List Nat) (v : State), (hs.foldl State.prePushOne v).isMarked g = v.isMarked g := by
    intro hs
    induction hs with
    | nil => exact fun v => rfl
    | cons h hs ih => exact fun v => (ih _).trans (prePushOne_isMarked v h g)
  exact hfold _ s

theorem beginPlanned_isMarked (s : State) (r : CutReason) (g : Nat) : (s.beginPlanned r).isMarked g = s.isMarked g := by
  rw [beginPlanned_eq, prePush_isMarked]
  exact isMarked_of_sends (announced_sends s r) g

/-! ## Nothing marked, and the limit stopped -/

/-- No entry is marked, the phase is not TRANSFER and the cutover limit does not run. -/
structure Unlimited (s : State) : Prop where
  marks : ∀ g, s.isMarked g = false
  phase : s.role.phase ≠ .transfer
  limit : s.role.cutLimit = .stopped

theorem Unlimited.sends (h : Unlimited s) (k : Sends s t) : Unlimited t :=
  ⟨fun g => (isMarked_of_sends k g).trans (h.marks g), by rw [k.role]; exact h.phase, by rw [k.role]; exact h.limit⟩

/-- R148: a planned cutover that begins marks nothing and leaves the limit. -/
theorem Unlimited.preemptTest (h : Unlimited s) : Unlimited s.preemptTest := by
  unfold State.preemptTest
  split
  · refine ⟨fun g => (beginPlanned_isMarked s _ g).trans (h.marks g), ?_, ?_⟩ <;> rw [beginPlanned_role]
    · exact nofun
    · exact h.limit
  · exact h

theorem Unlimited.retarget (h : Unlimited s) (hok : s.tableOk) : Unlimited s.retarget := by
  have hrole := retarget_role hok h.marks
  exact ⟨retarget_isMarked hok h.marks, by rw [hrole]; exact h.phase, by rw [hrole]; exact h.limit⟩

theorem settleEnded_unlimited (s : State) : Unlimited (settleEnded s) := by
  have hrole := settleEnded_role s
  exact ⟨settleEnded_isMarked s, by rw [hrole]; exact nofun, by rw [hrole]⟩

theorem Unlimited.endWalk (h : Unlimited s) : Unlimited s.endWalk := by
  have hstream : Unlimited { s with mirror := { s.mirror with state := .streaming } } := ⟨h.marks, h.phase, h.limit⟩
  exact (hstream.sends (raise_sends _ _ _)).preemptTest

/-- R116, R160: the tests that end an event. -/
theorem Unlimited.finish (h : Unlimited s) (hok : s.tableOk) : Unlimited s.finish := by
  have hend : Unlimited s.endSettle := ((settleEnded_unlimited s).retarget (settleEnded_tableOk hok)).preemptTest
  unfold State.finish
  dsimp only
  split
  · split
    · exact hend.endWalk
    · exact hend
  · split
    · exact h.endWalk
    · exact h

/-! ## The limit (R139, R159) -/

/-- R139: the cutover limit stopped, no mark cleared yet. -/
def limitStopped (s : State) : State := { s with role := { s.role with cutLimit := .stopped } }

theorem limitEnds_of_stopped (h : s.role.cutLimit = .stopped) : s.limitEnds = s := by
  simp [State.limitEnds, h, Timer.isRunning]

theorem limitEnds_of_running (h : s.role.cutLimit ≠ .stopped) :
    s.limitEnds = s.asEvent (fun v => (limitStopped v).releaseAll.finish) := if_pos ((isRunning_iff _).mpr h)

/-- R159: every mark is cleared, and a cutover in TRANSFER goes on to SETTLE. -/
theorem releaseAll_unlimited (h : s.role.cutLimit = .stopped) : Unlimited s.releaseAll := by
  have hmarks := clearAllMarks_isMarked s .released
  have hlimit : (s.clearAllMarks .released).role.cutLimit = .stopped := by rw [(clearAllMarks_marksOff s).role]; exact h
  unfold State.releaseAll
  dsimp only
  split
  · exact ⟨hmarks, nofun, hlimit⟩
  · rename_i hne
    exact ⟨hmarks, hne, hlimit⟩

/-- Settles O45: what R159 leaves is kept by the tests that end its event. -/
theorem cutoverLimitClearsEveryMark : Obligations.CutoverLimitClearsEveryMark := by
  refine fun s hok => ⟨fun h => congrArg Host.Outcome.next (limitEnds_of_stopped h), fun h => ?_⟩
  let v := (limitStopped s).releaseAll.finish
  have kstop : Still s (limitStopped s) := (role_held s (r := { s.role with cutLimit := .stopped }) rfl rfl).toStill
  have krelease : Still s (limitStopped s).releaseAll := kstop.trans (releaseAll_held _).toStill
  have kend : Sends v s.limitEnds := by
    rw [limitEnds_of_running h]
    exact sendRoleChanges_sends v _ _ _
  have kevent : Still s v := krelease.trans (finish_still _)
  have hend : Unlimited s.limitEnds := ((releaseAll_unlimited rfl).finish (krelease.table hok)).sends kend
  exact ⟨_, rfl, hend.marks, hend.phase, hend.limit, by rw [kend.role]; exact kevent.active,
    by rw [kend.role]; exact kevent.epoch, kend.health.trans kevent.health, kend.decl.trans kevent.decl⟩

end Sys2Proof.Roles

/-! An expiry of the park sweeper (R175): what it makes of one entry, and the marks it releases on its way (R155, R171). -/

namespace Sys2Proof.Roles

open Sys2Proof Sys2Proof.Machine Sys2Proof.Laws Sys2Proof.SessionTable Sys2Proof.Cutover Sys2Proof.MirrorChannel

variable {s t u : State}

/-! ## A rule for one entry, over the table -/

theorem entry?_of_not_listed {h : Nat} (hh : h ∉ s.handles) : s.entry? h = none :=
  Option.eq_none_iff_forall_ne_some.mpr fun _ he => hh (mem_handles he)

/-- A step that makes `g` of the entry at its own handle, and moves no other, makes `g` of every entry it is taken at. -/
theorem foldl_entry {step : State → Nat → State} {g : Entry → Entry} (hheld : ∀ v h, Held v (step v h))
    (hothers : ∀ (v : State) h, v.othersKept (step v h) h) (hself : ∀ v h, (step v h).entry? h = (v.entry? h).map g)
    (hok : s.tableOk) {hs : List Nat} (hn : hs.Nodup) (h : Nat) :
    (hs.foldl step s).entry? h = if h ∈ hs then (s.entry? h).map g else s.entry? h := by
  have hstep : ∀ v k, k ≠ h → KeepsAt h v (step v k) := fun v k hk hv => ⟨(hheld v k).table hv, hothers v k h hk.symm⟩
  obtain ⟨hoff, hon⟩ := foldl_at (R := KeepsAt h) (keepsAt_refl h) keepsAt_trans hstep hn s
  split
  · rename_i hh
    obtain ⟨v, h1, h2⟩ := hon hh
    obtain ⟨hv, hve⟩ := h1 hok
    obtain ⟨-, hend⟩ := h2 ((hheld v h).table hv)
    rw [hend, hself, hve]
  · rename_i hh
    exact (hoff hh hok).2

/-! ## One entry examined -/

/-- R175: the entry is marked and has a chain, so that the sweeper looks at it. -/
def isParked (l : LivePart) : Bool := l.marked && !l.chain.isEmpty

/-- R175: the sweeper releases the entry. -/
def isExpired (l : LivePart) : Bool := isParked l && decide (2 ≤ l.chainAge)

/-- R175: what the sweeper makes of the fields of a LIVE entry. -/
def parkSwept (l : LivePart) : LivePart :=
  if isExpired l then { l with marked := false }
  else if isParked l then { l with chainAge := l.chainAge + 1 } else l

/-- R175: the entry at the handle is one that the sweeper releases. -/
def expiredAt (s : State) (h : Nat) : Bool := (liveAt s h).any isExpired

theorem parkAge_of_expired {h : Nat} {l : LivePart} (hl : liveAt s h = some l) (hx : isExpired l = true) :
    s.parkAge h = s.clearMark h .released := by
  simp only [isExpired, isParked, Bool.and_eq_true, decide_eq_true_eq] at hx
  obtain ⟨hp, ha⟩ := hx
  have hl : (s.entry? h).bind Entry.live? = some l := hl
  simp [State.parkAge, hl, hp, Nat.not_lt.mpr ha]

theorem parkAge_of_young {h : Nat} {l : LivePart} (hl : liveAt s h = some l) (hp : isParked l = true)
    (hx : isExpired l = false) :
    s.parkAge h = s.modifyEntry h (·.mapLive (fun l => { l with chainAge := l.chainAge + 1 })) := by
  simp only [isExpired, hp, Bool.true_and, decide_eq_false_iff_not, Nat.not_le] at hx
  have hl : (s.entry? h).bind Entry.live? = some l := hl
  simp only [isParked] at hp
  simp [State.parkAge, hl, hp, hx]

theorem parkAge_of_passed {h : Nat} (hp : ∀ l, liveAt s h = some l → isParked l = false) : s.parkAge h = s := by
  unfold State.parkAge
  split
  · rename_i l hl
    have hn : (l.marked && !l.chain.isEmpty) = false := hp l hl
    simp [hn]
  · rfl

/-- R175: the three things the sweeper may do at a handle. -/
theorem parkAge_cases {P : State → Prop} (s : State) (h : Nat)
    (hpass : (∀ l, liveAt s h = some l → isParked l = false) → P s)
    (hage : ∀ l, liveAt s h = some l → isParked l = true → isExpired l = false →
      P (s.modifyEntry h (·.mapLive (fun l => { l with chainAge := l.chainAge + 1 }))))
    (hfree : ∀ l, liveAt s h = some l → isExpired l = true → P (s.clearMark h .released)) : P (s.parkAge h) := by
  cases hl : liveAt s h with
  | none =>
    have hnone : ∀ l, liveAt s h = some l → isParked l = false := fun l k => by rw [hl] at k; cases k
    rw [parkAge_of_passed hnone]
    exact hpass hnone
  | some l =>
    cases hp : isParked l with
    | false =>
      have hsome : ∀ l', liveAt s h = some l' → isParked l' = false := fun l' k => by
        rw [hl] at k; cases k; exact hp
      rw [parkAge_of_passed hsome]
      exact hpass hsome
    | true =>
      cases hx : isExpired l with
      | false => rw [parkAge_of_young hl hp hx]; exact hage l hl hp hx
      | true => rw [parkAge_of_expired hl hx]; exact hfree l hl hx

theorem parkAge_others (s : State) (h : Nat) : s.othersKept (s.parkAge h) h :=
  parkAge_cases (P := fun v => s.othersKept v h) s h (fun _ => othersKept_refl s h)
    (fun _ _ _ _ => modifyEntry_others s h _) (fun _ _ _ => clearMark_others s h _)

theorem mapLive_congr {e : Entry} {f g : LivePart → LivePart} (h : ∀ l, e.live? = some l → f l = g l) :
    e.mapLive f = e.mapLive g := by
  obtain ⟨fam, pr, o, i, c, n, x, b⟩ := e
  cases b with
  | live d m l => simp only [Entry.mapLive, h l rfl]
  | tentative => rfl
  | retiring d m bs => rfl

theorem mapLive_id (e : Entry) : e.mapLive id = e := by
  obtain ⟨fam, pr, o, i, c, n, x, b⟩ := e
  cases b <;> rfl

theorem liveAt_of_some {h : Nat} {e : Entry} {l : LivePart} (he : s.entry? h = some e) (hl : e.live? = some l) :
    liveAt s h = some l := by rw [liveAt, he]; exact hl

/-- R175: of the entry that the sweeper examines. -/
theorem parkAge_self (s : State) (h : Nat) : (s.parkAge h).entry? h = (s.entry? h).map (·.mapLive parkSwept) := by
  refine parkAge_cases (P := fun v => v.entry? h = _) s h (fun hp => ?_) (fun l hl hp hx => ?_) (fun l hl hx => ?_)
  · cases he : s.entry? h with
    | none => rfl
    | some e =>
      refine congrArg some (Eq.trans (mapLive_id e).symm (mapLive_congr fun l hl => ?_))
      simp [parkSwept, isExpired, hp l (liveAt_of_some he hl)]
  · rw [modifyEntry_self]
    refine Option.map_congr fun e he => mapLive_congr fun l' hl' => ?_
    obtain rfl : l' = l := Option.some.inj ((liveAt_of_some he hl').symm.trans hl)
    simp [parkSwept, hx, hp]
  · rw [clearMark_self]
    refine Option.map_congr fun e he => mapLive_congr fun l' hl' => ?_
    obtain rfl : l' = l := Option.some.inj ((liveAt_of_some he hl').symm.trans hl)
    simp [parkSwept, hx]

/-! ## Marks released -/

/-- A number raised by one `k` times, as a counter is that stays at its cap. -/
def raisedBy (n k cap : Nat) : Nat := if k = 0 then n else min (n + k) cap

theorem raisedBy_zero (n cap : Nat) : raisedBy n 0 cap = n := rfl

theorem raisedBy_add (n j k cap : Nat) : raisedBy (raisedBy n j cap) k cap = raisedBy n (j + k) cap := by
  unfold raisedBy
  split <;> split <;> split <;> omega

/-- From `s` to `t` the marks at the handles have been released in order: each entry has joined the tail of the Release Queue and
is counted; the Mirror Engine and the frames held stay, and the phase where nothing was released. -/
structure Releases (s t : State) (hs : List Nat) : Prop where
  queue : t.park.releaseQueue = s.park.releaseQueue ++ hs
  held : t.park.framesHeld = s.park.framesHeld
  marked : t.role.marked = s.role.marked - hs.length
  record : t.role.record.released = raisedBy s.role.record.released hs.length 65535
  count : t.count .releasedUnconfirmed = raisedBy (s.count .releasedUnconfirmed) hs.length Config.counterMax
  mirror : t.mirror = s.mirror
  phase : hs = [] → t.role.phase = s.role.phase

theorem releases_none (hk : t.park = s.park) (hr : t.role = s.role) (hc : t.counters = s.counters) (hm : t.mirror = s.mirror) :
    Releases s t [] :=
  ⟨by rw [hk, List.append_nil], by rw [hk], by rw [hr]; rfl, by rw [hr]; rfl, by simp only [State.count, hc]; rfl, hm,
    fun _ => by rw [hr]⟩

theorem Releases.trans {hs gs : List Nat} (h : Releases s t hs) (k : Releases t u gs) : Releases s u (hs ++ gs) where
  queue := by rw [k.queue, h.queue, List.append_assoc]
  held := k.held.trans h.held
  marked := by rw [k.marked, h.marked, List.length_append, Nat.sub_sub]
  record := by rw [k.record, h.record, List.length_append, raisedBy_add]
  count := by rw [k.count, h.count, List.length_append, raisedBy_add]
  mirror := k.mirror.trans h.mirror
  phase := fun hnil => by
    obtain ⟨h1, h2⟩ := List.append_eq_nil_iff.mp hnil
    exact (k.phase h2).trans (h.phase h1)

theorem unmarkedRole_record (r : Role) : (unmarkedRole r).record = r.record := by
  unfold unmarkedRole
  split <;> rfl

theorem joinRelease_held_frames (s : State) (h : Nat) : (s.joinRelease h).park.framesHeld = s.park.framesHeld := by
  unfold State.joinRelease
  split
  · split <;> rfl
  · rfl

/-- R155: a mark released is counted in RELEASED_UNCONFIRMED. -/
theorem clearMark_released_counters {h : Nat} (hm : s.isMarked h = true) :
    (s.clearMark h .released).counters = (s.inc .releasedUnconfirmed).counters := by
  rw [clearMark_of_marked _ hm, joinRelease_eq]
  exact unmark_counters _ h

/-- R155, R171: one mark released, of an entry with a chain. -/
theorem clearMark_releases {h : Nat} {e : Entry} (he : s.entry? h = some e) (hm : e.marked = true) (hc : e.chain ≠ []) :
    Releases s (s.clearMark h .released) [h] := by
  have hmark : s.isMarked h = true := (isMarked_of_entry he).trans hm
  have hrole := clearMark_role_of_marked .released hmark
  refine ⟨?_, ?_, ?_, ?_, ?_, clearMark_mirror s h _, nofun⟩
  · rw [clearMark_queue _ he hm, if_neg hc]
  · rw [clearMark_of_marked _ hmark, joinRelease_held_frames, unmark_park, tallyMark_park]
  · rw [hrole, unmarkedRole_marked]
    rfl
  · rw [hrole, unmarkedRole_record]
    rfl
  · simp only [State.count, clearMark_released_counters hmark]
    exact count_inc s _ _

/-- R175: the sweeper at one handle. -/
theorem parkAge_releases (s : State) (h : Nat) : Releases s (s.parkAge h) (if expiredAt s h then [h] else []) := by
  refine parkAge_cases (P := fun v => Releases s v _) s h (fun hp => ?_) (fun l hl hp hx => ?_) (fun l hl hx => ?_)
  · have hnot : expiredAt s h = false := by
      unfold expiredAt
      cases hl : liveAt s h with
      | none => rfl
      | some l => simp [isExpired, hp l hl]
    rw [hnot]
    exact releases_none rfl rfl rfl rfl
  · rw [expiredAt, hl, Option.any_some, hx]
    exact releases_none (modifyEntry_park s h _) (modifyEntry_role s h _) (modifyEntry_lanes s h _).counters
      (modifyEntry_mirror s h _)
  · rw [expiredAt, hl, Option.any_some, hx, if_pos rfl]
    obtain ⟨e, d, m, he, hb⟩ := entry_of_liveAt hl
    simp only [isExpired, isParked, Bool.and_eq_true, Bool.not_eq_true', List.isEmpty_eq_false_iff] at hx
    obtain ⟨⟨hm, hc⟩, -⟩ := hx
    exact clearMark_releases he (by simp [Entry.marked, Entry.live?, hb, hm]) (by simp [Entry.chain, Entry.live?, hb, hc])

/-- R175: the sweeper over distinct handles, in their order. -/
theorem foldl_parkAge_releases {hs : List Nat} (hn : hs.Nodup) (s : State) :
    Releases s (hs.foldl State.parkAge s) (hs.filter (expiredAt s)) := by
  induction hs generalizing s with
  | nil => exact releases_none rfl rfl rfl rfl
  | cons h hs ih =>
    obtain ⟨hh, hn⟩ := List.nodup_cons.mp hn
    have hrest : hs.filter (expiredAt (s.parkAge h)) = hs.filter (expiredAt s) := List.filter_congr fun g hg => by
      simp only [expiredAt, liveAt, parkAge_others s h g (fun e => hh (e ▸ hg))]
    have hstep := (parkAge_releases s h).trans (ih hn (s.parkAge h))
    have hcons : (h :: hs).filter (expiredAt s) = (if expiredAt s h then [h] else []) ++ hs.filter (expiredAt s) := by
      rw [List.filter_cons]
      split <;> rfl
    rw [hrest, ← hcons] at hstep
    exact hstep

/-! ## The sweep -/

/-- R175: the sweeper's next period begun, no entry examined yet. -/
def parkPeriod (s : State) : State := { s with sweepers := { s.sweepers with park := s.param .parkSweep } }

theorem parkAge_works (s : State) (h : Nat) : Works s (s.parkAge h) :=
  parkAge_cases (P := Works s) s h (fun _ => .refl s) (fun _ _ _ _ => (modifyEntry_lanes s h _).works)
    (fun _ _ _ => clearMark_works s h _)

theorem parkSweep_works (s : State) : Works (parkPeriod s) s.parkSweep := .foldl parkAge_works _ _

/-- R175: every entry after the sweep. -/
theorem parkSweep_entry (hok : s.tableOk) (h : Nat) : s.parkSweep.entry? h = (s.entry? h).map (·.mapLive parkSwept) := by
  refine (foldl_entry (s := parkPeriod s) parkAge_held parkAge_others parkAge_self hok (handles_nodup hok) h).trans ?_
  split
  · rfl
  · rename_i hh
    have hnone : s.entry? h = none := entry?_of_not_listed hh
    rw [hnone]
    exact hnone

/-- R175: the entries released, as the table lists them. -/
theorem expired_handles (hok : s.tableOk) : s.handles.filter (expiredAt s) = (s.table.entries.filter (fun x =>
    x.2.live?.any (fun l => l.marked && !l.chain.isEmpty && decide (2 ≤ l.chainAge)))).map (·.1) := by
  rw [State.handles, List.filter_map]
  refine congrArg (List.map _) (List.filter_congr fun x hx => ?_)
  rw [Function.comp_apply, expiredAt, liveAt, entry?_of_mem hok hx]
  rfl

/-- R175: what the sweep releases. -/
theorem parkSweep_releases (hok : s.tableOk) : Releases s s.parkSweep (s.handles.filter (expiredAt s)) :=
  (releases_none (s := s) (t := parkPeriod s) rfl rfl rfl rfl).trans (foldl_parkAge_releases (handles_nodup hok) (parkPeriod s))

/-- R116, R160: nothing ends the event of a sweep at such a moment: a mark released puts a chain in the Release Queue. -/
theorem parkSweep_unended (hok : s.tableOk) (hw : s.mirror.state = .walking → s.mirror.cursor < Config.handles)
    (hs : s.role.phase = .settle → s.park.framesHeld ≠ 0 ∨ s.mirror.slots ≠ []) : s.parkSweep.finish = s.parkSweep := by
  have k := parkSweep_releases hok
  refine finish_of_undone ?_ ?_
  · by_cases hnil : s.handles.filter (expiredAt s) = []
    · by_cases hp : s.role.phase = .settle
      · rcases hs hp with hf | hb
        · simp [State.settleDone, k.held, hf]
        · simp [State.settleDone, k.mirror, hb]
      · exact settleDone_of_phase (by rw [k.phase hnil]; exact hp)
    · have hqueue : s.parkSweep.park.releaseQueue ≠ [] := by
        rw [k.queue]
        exact List.append_ne_nil_of_right_ne_nil _ hnil
      simp [State.settleDone, hqueue]
  · by_cases hm : s.mirror.state = .walking
    · simp [State.walkDone, k.mirror, (hw hm).ne]
    · exact walkDone_of_state (by rw [k.mirror]; exact hm)

theorem parkSwept_of_young {l : LivePart} (hm : l.marked = true) (hc : l.chain ≠ []) (ha : l.chainAge < 2) :
    parkSwept l = { l with chainAge := l.chainAge + 1 } := by simp [parkSwept, isExpired, isParked, hm, hc, ha]

theorem parkSwept_of_old {l : LivePart} (hm : l.marked = true) (hc : l.chain ≠ []) (ha : 2 ≤ l.chainAge) :
    parkSwept l = { l with marked := false } := by simp [parkSwept, isExpired, isParked, hm, hc, ha]

theorem mapLive_of_live {e : Entry} {d : Declared} {m : MirrorPart} {l : LivePart} (hb : e.body = .live d m l)
    (f : LivePart → LivePart) : e.mapLive f = { e with body := .live d m (f l) } := by simp only [Entry.mapLive, hb]

theorem mapLive_parkSwept_of_passed {e : Entry} (h : e.marked = false ∨ e.chain = []) : e.mapLive parkSwept = e := by
  refine Eq.trans (mapLive_congr fun l hl => ?_) (mapLive_id e)
  have hp : isParked l = false := by simpa [isParked, Entry.marked, Entry.chain, hl, Decidable.or_iff_not_imp_left] using h
  simp [parkSwept, isExpired, hp]

/-- Settles O47: the entries by the rule for one, the queue and the counts by the fold over the table. -/
theorem parkSweepAgesOrReleasesChains : Obligations.ParkSweepAgesOrReleasesChains := by
  intro s hok hw hs due
  have k := parkSweep_releases hok
  have hdue : s.handles.filter (expiredAt s) = due.map (·.1) := expired_handles hok
  let t := s.parkSweep.sendRoleChanges s.role.phase (s.assigned .a) (s.assigned .b)
  have ks : Sends s.parkSweep t := sendRoleChanges_sends _ _ _ _
  have hentry : ∀ h, t.entry? h = (s.entry? h).map (·.mapLive parkSwept) := fun h =>
    (entry?_of_table (congrArg Table.entries ks.table) h).trans (parkSweep_entry hok h)
  have hraised : ∀ n cap, raisedBy n due.length cap = if due = [] then n else min (n + due.length) cap := fun n cap => by
    simp only [raisedBy, List.length_eq_zero_iff]
  rw [hdue] at k
  have hlen : (due.map (·.1)).length = due.length := List.length_map _
  refine ⟨t, ?_, ?_, fun h e d m l he hb hm hc => ⟨fun ha => ?_, fun ha => ?_⟩, fun h e he hp => ?_, ?_, ?_, ?_, ?_⟩
  · exact congrArg Host.Outcome.next (congrArg (State.sendRoleChanges · _ _ _) (parkSweep_unended hok hw hs))
  · have hsweepers : t.sweepers = s.parkSweep.sweepers := by rw [ks]
    rw [hsweepers, (parkSweep_works s).sweepers]
    rfl
  · rw [hentry, he, Option.map_some, mapLive_of_live hb, parkSwept_of_young hm hc ha]
  · rw [hentry, he, Option.map_some, mapLive_of_live hb, parkSwept_of_old hm hc ha]
  · rw [hentry, he, Option.map_some, mapLive_parkSwept_of_passed hp]
  · rw [ks.park, k.queue]
  · rw [ks.role, k.marked, hlen]
  · rw [ks.role, k.record, hlen, hraised]
  · rw [sendRoleChanges_count _ _ _ _ (by decide), k.count, hlen, hraised]

end Sys2Proof.Roles

/-! SWITCHOVER (R146, R206): how it is judged, and what the pre-push of the planned cutover it begins makes of each entry
(R151). -/

namespace Sys2Proof.Roles

open Sys2Proof Sys2Proof.Machine Sys2Proof.Laws Sys2Proof.SessionTable Sys2Proof.Cutover Sys2Proof.FramePath
  Sys2Proof.MirrorChannel

variable {s t u : State}

/-! ## The pre-push at one entry (R151) -/

/-- R151: the LIVE entry is pushed as the marking of TRANSFER would push it; any other protected one owes nothing. -/
def isPrePushed (e : Entry) (m : MirrorPart) (l : LivePart) : Prop :=
  l.unprotected = false ∧ (m.lane = none → m.inflight = none → m.peer ≠ .current ∨ e.anyDrift = true)

theorem prePushOne_of_none {h : Nat} (he : s.entry? h = none) : s.prePushOne h = s := by simp [State.prePushOne, he]

section
variable {h : Nat} {e : Entry} {d : Declared} {m : MirrorPart} {l : LivePart} {bs : List Nat}

theorem prePushOne_live (he : s.entry? h = some e) (hb : e.body = .live d m l) (hp : isPrePushed e m l) :
    s.prePushOne h = s.pushMarked h m := by
  obtain ⟨hun, howes⟩ := hp
  simp only [State.prePushOne, he, hb, hun, Bool.false_eq_true, if_false, State.pushMarked]
  cases hl : m.lane with
  | some ln => cases ln <;> rfl
  | none =>
    by_cases hi : m.inflight = none
    · by_cases hc : m.peer = .current
      · have hd : e.anyDrift = true := (howes hl hi).resolve_left (not_not_intro hc)
        simp [hi, hc, hd]
      · simp [hi, hc]
    · simp [Option.isSome_iff_ne_none, hi]

theorem prePushOne_live_passed (he : s.entry? h = some e) (hb : e.body = .live d m l) (hp : ¬ isPrePushed e m l) :
    s.prePushOne h = s := by
  cases hun : l.unprotected with
  | true => simp [State.prePushOne, he, hb, hun]
  | false =>
    simp only [isPrePushed, hun, true_and, Classical.not_imp, not_or, Decidable.not_not, Bool.not_eq_true] at hp
    obtain ⟨hl, hi, hc, hd⟩ := hp
    simp [State.prePushOne, he, hb, hun, hl, hi, hc, hd]

/-- R151: what the pre-push makes of a LIVE entry. -/
theorem prePushOne_self (he : s.entry? h = some e) (hb : e.body = .live d m l) :
    (isPrePushed e m l → (s.prePushOne h).entry? h = some (e.withLive d (pushedPart m) l)) ∧
      (¬ isPrePushed e m l → (s.prePushOne h).entry? h = some e) := by
  refine ⟨fun hp => ?_, fun hp => ?_⟩
  · rw [prePushOne_live he hb hp]
    exact pushMarked_self (he.trans (congrArg some (eq_withLive hb)))
  · rw [prePushOne_live_passed he hb hp]
    exact he

/-- R151: a RETIRING entry moves to URGENT when another waits for it. -/
theorem prePushOne_retiring (he : s.entry? h = some e) (hb : e.body = .retiring d m bs) : s.prePushOne h =
    if m.lane = some .normal ∧ bs ≠ [] then s.toUrgentTail h else s := by simp only [State.prePushOne, he, hb]

end

theorem prePushOne_others (s : State) (h : Nat) : s.othersKept (s.prePushOne h) h := by
  cases he : s.entry? h with
  | none => rw [prePushOne_of_none he]; exact othersKept_refl s h
  | some e =>
    cases hb : e.body with
    | tentative =>
      have hself : s.prePushOne h = s := by simp only [State.prePushOne, he, hb]
      rw [hself]; exact othersKept_refl s h
    | live d m l =>
      by_cases hp : isPrePushed e m l
      · rw [prePushOne_live he hb hp]; exact pushMarked_others s h m
      · rw [prePushOne_live_passed he hb hp]; exact othersKept_refl s h
    | retiring d m bs =>
      rw [prePushOne_retiring he hb]
      exact othersKept_ite (toUrgentTail_others s h) (othersKept_refl s h)

/-- R151: the pre-push leaves of an entry what it makes of it at the entry's own handle. -/
theorem prePush_at (hok : s.tableOk) {h : Nat} {e : Entry} (he : s.entry? h = some e) :
    ∃ v : State, v.entry? h = some e ∧ s.prePush.entry? h = (v.prePushOne h).entry? h := by
  have hstep : ∀ v g, g ≠ h → KeepsAt h v (v.prePushOne g) := fun v g hg hv =>
    ⟨(prePushOne_held v g).table hv, prePushOne_others v g h hg.symm⟩
  obtain ⟨-, hon⟩ := foldl_at (R := KeepsAt h) (keepsAt_refl h) keepsAt_trans hstep (handles_nodup hok) s
  obtain ⟨v, h1, h2⟩ := hon (mem_handles he)
  obtain ⟨hv, hve⟩ := h1 hok
  exact ⟨v, hve.trans he, (h2 ((prePushOne_held v h).table hv)).2⟩

theorem toUrgentTail_queuedOf (s : State) (h : Nat) : (s.toUrgentTail h).queuedOf h = s.queuedOf h := by
  cases hq : s.queuedOf h with
  | none => simp [State.toUrgentTail, hq]
  | some k =>
    rw [toUrgentTail_of_queued hq]
    cases he : s.entry? h with
    | none => simp [State.queuedOf, he] at hq
    | some e =>
      have hm : ∃ m, e.mirror? = some m := Option.ne_none_iff_exists'.mp fun hn => by simp [State.queuedOf, he, hn] at hq
      obtain ⟨m, hm⟩ := hm
      simp [State.queuedOf, lanePlace_self, he, hm]

theorem toUrgentTail_laneOf {h : Nat} (hq : s.queuedOf h ≠ none) : (s.toUrgentTail h).laneOf h = some .urgent := by
  obtain ⟨k, hk⟩ := Option.ne_none_iff_exists'.mp hq
  rw [toUrgentTail_of_queued hk]
  cases he : s.entry? h with
  | none => simp [State.queuedOf, he] at hk
  | some e =>
    have hm : ∃ m, e.mirror? = some m := Option.ne_none_iff_exists'.mp fun hn => by simp [State.queuedOf, he, hn] at hk
    obtain ⟨m, hm⟩ := hm
    simp [State.laneOf, lanePlace_self, he, hm]

theorem laneOf_of_retiring {h : Nat} {e : Entry} {d : Declared} {m : MirrorPart} {bs : List Nat} (he : s.entry? h = some e)
    (hb : e.body = .retiring d m bs) : s.laneOf h = m.lane := by simp [State.laneOf, he, Entry.mirror?, hb]

theorem queuedOf_of_retiring {h : Nat} {e : Entry} {d : Declared} {m : MirrorPart} {bs : List Nat} (he : s.entry? h = some e)
    (hb : e.body = .retiring d m bs) : s.queuedOf h = m.queued := by simp [State.queuedOf, he, Entry.mirror?, hb]

theorem laneOf_of_same {h : Nat} (he : t.entry? h = s.entry? h) : t.laneOf h = s.laneOf h := by simp only [State.laneOf, he]

theorem queuedOf_of_same {h : Nat} (he : t.entry? h = s.entry? h) : t.queuedOf h = s.queuedOf h := by
  simp only [State.queuedOf, he]

/-- R151: a queued entry ends in URGENT, whichever lane it was in. -/
theorem pushedPart_of_lane {m : MirrorPart} (hq : m.lane = none ↔ m.queued = none) (hl : m.lane ≠ none) :
    pushedPart m = { m with lane := some .urgent } := by
  obtain ⟨k, hk⟩ := Option.ne_none_iff_exists'.mp (mt hq.mpr hl)
  obtain ⟨ln, hln⟩ := Option.ne_none_iff_exists'.mp hl
  cases ln with
  | normal => rw [pushedPart_of_normal hln hk, ← hk]
  | urgent => rw [pushedPart_of_urgent hln, ← hln]

/-! ## The planned cutover begun (R150) -/

/-- R141, R150: the planned cutover announced and its quiesce timer started, nothing pushed yet. -/
def quiescing (s : State) (r : CutReason) : State :=
  { announced s r with role := { (announced s r).role with quiesce := .start ((announced s r).param .quiesceTimeout) } }

theorem quiescing_entry (s : State) (r : CutReason) (h : Nat) : (quiescing s r).entry? h = s.entry? h :=
  entry?_of_table (congrArg Table.entries (announced_sends s r).table) h

theorem beginPlanned_at (hok : s.tableOk) (r : CutReason) {h : Nat} {e : Entry} (he : s.entry? h = some e) :
    ∃ v : State, v.entry? h = some e ∧ (s.beginPlanned r).entry? h = (v.prePushOne h).entry? h := by
  have hok' : (quiescing s r).tableOk := by
    have ht : (quiescing s r).table = s.table := (announced_sends s r).table
    simp only [State.tableOk, ht]
    exact hok
  exact prePush_at hok' ((quiescing_entry s r h).trans he)

theorem beginPlanned_starts (s : State) (r : CutReason) : ((s.beginPlanned r).event .cutoverStart).flag = true := by
  rw [beginPlanned_eq, (prePush_lanes _).event]
  have hdrain : (announced s r).events = ((planned s r).raise .cutoverStart (planned s r).startParams).events :=
    handTx_events _ _ _
  have hev : (announced s r).event .cutoverStart = ((planned s r).event .cutoverStart).next := by
    simp only [State.event, hdrain]
    exact (raise_event _ _ _ _).trans (if_pos rfl)
  exact (congrArg EventState.flag (hev.trans (next_eq _))).trans rfl

theorem beginPlanned_target (s : State) (r : CutReason) : (s.beginPlanned r).mirror.target = s.mirror.target := by
  rw [beginPlanned_eq, (prePush_lanes _).works.target]
  exact congrArg Mirror.target (announced_sends s r).mirror

/-- R150: the event of a planned cutover begun, its ROLE frames sent. -/
def plannedEvent (s : State) : State := s.asEvent (·.beginPlanned .switchover)

theorem plannedEvent_sends (s : State) : Sends (s.beginPlanned .switchover) (plannedEvent s) := sendRoleChanges_sends _ _ _ _

theorem plannedEvent_held (s : State) : Held s (plannedEvent s) :=
  (beginPlanned_held s _).trans (sendRoleChanges_held _ _ _ _)

/-! ## SWITCHOVER judged (R146) -/

theorem byteAt_head (b : Byte) (more : List Byte) : byteAt (b :: more) 0 = b := rfl

theorem switchoverOf_busy (args : List Byte) (hp : s.role.phase ≠ .none) :
    s.switchoverOf args = { status := .busy, results := [], state := s } := by
  simp [State.switchoverOf, State.judgeSwitchover, hp]

theorem switchoverOf_notReady {b : Byte} {more : List Byte} (hp : s.role.phase = .none)
    (hn : s.usable s.role.active.other = false ∨ (s.ready = false ∧ b = 0#8)) :
    s.switchoverOf (b :: more) = { status := .notReady, results := [], state := s } := by
  by_cases hu : s.usable s.role.active.other = true
  · obtain ⟨hr, hz⟩ := hn.resolve_left (by simp [hu])
    simp [State.switchoverOf, State.judgeSwitchover, hp, standby_of_usable hu, hr, byteAt_head, hz]
  · simp [State.switchoverOf, State.judgeSwitchover, hp, standby_of_unusable (Bool.not_eq_true _ ▸ hu)]

theorem switchoverOf_ok {b : Byte} {more : List Byte} (hp : s.role.phase = .none)
    (hu : s.usable s.role.active.other = true) (hr : s.ready = true ∨ b ≠ 0#8) :
    s.switchoverOf (b :: more) = { status := .ok, results := [], state := plannedEvent s } := by
  have hr : (!s.ready && !(b != 0#8)) = false := by rcases hr with hr | hb <;> simp [*]
  simp [State.switchoverOf, State.judgeSwitchover, hp, standby_of_usable hu, byteAt_head, hr, plannedEvent]

/-- Settles O42: the three judgements in their order, and the pre-push at each entry. -/
theorem switchoverIsJudgedInOrder : Obligations.SwitchoverIsJudgedInOrder := by
  intro s q rest b more hh hw hargs
  let v : State := { s with requests := rest }
  have hserve : ∀ {a : Answer}, v.switchoverOf (b :: more) = a → exec .switchover s = .next (a.send q) := fun ha => by
    rw [← ha, ← hargs]
    exact congrArg Host.Outcome.next (serve_write hh hw rfl (by rw [hargs]; exact Nat.le_add_left 1 _) State.switchoverOf)
  refine ⟨fun hp => ?_, fun hp hn => ?_, fun hp hu hr => ?_⟩
  · exact (hserve (switchoverOf_busy (s := v) _ hp)).trans (congrArg Host.Outcome.next (send_answered hh rfl))
  · exact (hserve (switchoverOf_notReady (s := v) hp hn)).trans (congrArg Host.Outcome.next (send_answered hh rfl))
  let a : Answer := { status := .ok, results := [], state := plannedEvent v }
  have ha : v.switchoverOf (b :: more) = a := switchoverOf_ok (s := v) hp hu hr
  have ks : Sends (v.beginPlanned .switchover) (a.send q) := (plannedEvent_sends v).trans (send_sends a q)
  have kheld : Held v (plannedEvent v) := plannedEvent_held v
  have hentry : ∀ h, (a.send q).entry? h = (v.beginPlanned .switchover).entry? h :=
    entry?_of_table (congrArg Table.entries ks.table)
  refine ⟨a.send q, hserve ha, ?_, ?_, ?_, ?_, ?_, ?_,
    fun hok h => ?_, fun hok h e d m l he hb hq => ?_, fun hok h e d m bs he hb hq => ?_⟩
  · exact ks.requests.trans (beginPlanned_held v _).requests
  · obtain ⟨-, -, hlink, -⟩ := hh
    exact send_repliesLast ((kheld.sends q.port).1.trans hlink)
  · rw [ks.role, beginPlanned_role]
    rfl
  · have hev : (a.send q).event .cutoverStart = (v.beginPlanned .switchover).event .cutoverStart := by
      have h1 : (a.send q).events = (plannedEvent v).events := handTx_events _ _ _
      have h2 : (plannedEvent v).events = (v.beginPlanned .switchover).events := sendRoleChanges_events _ _ _ _
      simp only [State.event, h1, h2]
    rw [hev]
    exact beginPlanned_starts v _
  · exact ks.health.trans (beginPlanned_held v _).health
  · rw [ks.mirror, beginPlanned_target]
  · rw [phase_congr (hentry h)]
    exact phase_of_map ((beginPlanned_held v _).phase? hok h)
  · obtain ⟨w, hw, hat⟩ := beginPlanned_at (s := v) hok .switchover he
    obtain ⟨hpush, hpass⟩ := prePushOne_self hw hb
    rw [hentry, hat]
    intro owes
    refine ⟨fun ho => ?_, fun hun hl => ?_, fun ho hun => ?_⟩
    · obtain ⟨hun, hl, hi, hneed⟩ := ho
      rw [hpush ⟨hun, fun _ _ => hneed⟩, pushedPart_of_idle hl (by simp [hi])]
    · rw [hpush ⟨hun, fun hn => absurd hn hl⟩, pushedPart_of_lane hq hl]
    · by_cases hpp : isPrePushed e m l
      · obtain ⟨hprot, hneed⟩ := hpp
        have hl : m.lane = none := hun.resolve_left (by simp [hprot])
        have hi : m.inflight ≠ none := fun hi => ho ⟨hprot, hl, hi, hneed hl hi⟩
        rw [hpush ⟨hprot, hneed⟩, pushedPart_of_inflight hl (Option.isSome_iff_ne_none.mpr hi), ← eq_withLive hb]
      · exact hpass hpp
  · obtain ⟨w, hw, hat⟩ := beginPlanned_at (s := v) hok .switchover he
    rw [laneOf_of_same ((hentry h).trans hat), queuedOf_of_same ((hentry h).trans hat), prePushOne_retiring hw hb,
      ← queuedOf_of_retiring hw hb]
    split
    · exact ⟨toUrgentTail_laneOf (by rwa [queuedOf_of_retiring hw hb]), toUrgentTail_queuedOf w h⟩
    · exact ⟨laneOf_of_retiring hw hb, rfl⟩

end Sys2Proof.Roles

/-! The loss of a link of the active firewall, in phase NONE and in QUIESCE (R139, R143, R152, R153), and what the tests that end
such an event can do when no firewall is left to stand by. -/

namespace Sys2Proof.Roles

open Sys2Proof Sys2Proof.Machine Sys2Proof.Laws Sys2Proof.SessionTable Sys2Proof.Cutover Sys2Proof.FramePath
  Sys2Proof.MirrorChannel Sys2Proof.FirewallHealth

variable {s t u : State}

/-! ## The end of an event with no standby (R116, R160) -/

/-- From `s` to `t` only frames handed over, TX_DROP, WALK_DONE, the fitness dwell and the Mirror Engine but its target may
differ. -/
structure Passes (s t : State) : Prop where
  role : t.role = { s.role with dwell := t.role.dwell }
  table : t.table = s.table
  decl : t.decl = s.decl
  park : t.park = s.park
  health : t.health = s.health
  target : t.mirror.target = s.mirror.target
  counts : ∀ c, c ≠ .txDrop → t.count c = s.count c
  events : ∀ ev, ev ≠ .walkDone → t.event ev = s.event ev

theorem evalFitness_passes (s : State) : Passes s s.evalFitness :=
  ⟨rfl, rfl, rfl, rfl, rfl, rfl, fun _ _ => rfl, fun _ _ => rfl⟩

theorem sendRoleChanges_passes (s : State) (ph : CutPhase) (a b : RoleName) : Passes s (s.sendRoleChanges ph a b) := by
  have k := sendRoleChanges_sends s ph a b
  refine ⟨by rw [k.role], k.table, k.decl, k.park, k.health, by rw [k.mirror], fun c hc => sendRoleChanges_count _ _ _ _ hc,
    fun ev _ => ?_⟩
  simp only [State.event, sendRoleChanges_events]

theorem walkEnded_passes (s : State) : Passes s (walkEnded s) := by
  have k := walkEnded_sends s
  exact ⟨by rw [k.role], k.table, k.decl, k.park, k.health, by rw [k.mirror],
    fun c hc => (raise_count _ _ _ hc).trans rfl, fun ev hev => (raise_event _ _ _ _).trans (if_neg hev)⟩

theorem Passes.standby (h : Passes s t) : t.standby = s.standby := standby_congr (by rw [h.role]) h.health

theorem Passes.entry (h : Passes s t) (g : Nat) : t.entry? g = s.entry? g := entry?_of_table (congrArg Table.entries h.table) g

theorem Passes.tableOk (h : Passes s t) (hok : s.tableOk) : t.tableOk := by
  unfold State.tableOk
  rw [h.table]
  exact hok

/-- What the end of an event with no standby keeps: it outlasts the end of SETTLE as it does everything smaller. -/
structure Lasting (P : State → Prop) : Prop where
  passes : ∀ {x y}, Passes x y → P x → P y
  settles : ∀ {x}, x.settleDone = true → x.standby = none → P x → P (settleEnded x).retarget

/-- R160: the end of SETTLE, the mirror target taken anew. -/
theorem settled_standby (s : State) : (settleEnded s).retarget.standby = s.standby := by
  have k : Still s (settleEnded s).retarget := (settleEnded_held s).toStill.trans (retarget_still _)
  exact standby_congr k.active k.health

theorem endSettle_of_no_standby (hs : s.standby = none) : s.endSettle = (settleEnded s).retarget :=
  (endSettle_eq s).trans (preemptTest_of_no_standby ((settled_standby s).trans hs))

theorem endWalk_of_no_standby (hs : s.standby = none) : s.endWalk = walkEnded s :=
  preemptTest_of_no_standby ((walkEnded_passes s).standby.trans hs)

section
variable {P : State → Prop}

theorem Lasting.endWalk (L : Lasting P) (hs : s.standby = none) (h : P s) : P (if s.walkDone then s.endWalk else s) := by
  split
  · rw [endWalk_of_no_standby hs]
    exact L.passes (walkEnded_passes s) h
  · exact h

/-- R116, R160: with no standby there is nothing to pre-empt with. -/
theorem Lasting.finish (L : Lasting P) (hs : s.standby = none) (h : P s) : P s.finish := by
  unfold State.finish
  dsimp only
  by_cases hd : s.settleDone = true
  · rw [if_pos hd, endSettle_of_no_standby hs]
    exact L.endWalk ((settled_standby s).trans hs) (L.settles hd hs h)
  · rw [if_neg hd]
    exact L.endWalk hs h

/-- R132, R141, R147: the event of a change of health ended. -/
def changeEnded (s : State) (ph : CutPhase) (a b : RoleName) : State := s.evalFitness.finish.sendRoleChanges ph a b

theorem Lasting.changeEnded (L : Lasting P) (hs : s.standby = none) (h : P s) (ph : CutPhase) (a b : RoleName) :
    P (changeEnded s ph a b) :=
  L.passes (sendRoleChanges_passes _ ph a b) (L.finish ((evalFitness_passes s).standby.trans hs)
    (L.passes (evalFitness_passes s) h))

end

/-! ## A cutover that has moved the active role -/

/-- R157, R160: the late window is `w` while the cutover is under way, and is over after it. -/
def LateBy (w : Timer) (s : State) : Prop := s.role.lateWindow = if s.role.phase = .none then .stopped else w

/-- R112, R117: the mirror target taken anew may free marked entries, and touches nothing else of the roles. -/
theorem retarget_role_rest (s : State) : s.retarget.role =
    { s.role with phase := s.retarget.role.phase, marked := s.retarget.role.marked, record := s.retarget.role.record } := by
  rcases retarget_cases s with ⟨h, -⟩ | ⟨f, -, h⟩ | ⟨-, h⟩ <;> rw [h]
  · have hrole : (s.walkStart f).role = (s.abandonMirror (some f) .walking 0 true).role := (sendBatch_sends _ _ _ _).role
    rw [hrole]
    exact congrArg State.role (abandonMirror_works s (some f) .walking 0 true)
  · exact congrArg State.role (abandonMirror_works s none .idle 16384 false)

theorem settled_phase (hs : s.standby = none) : (settleEnded s).retarget.role.phase = .none := by
  have k := settleEnded_held s
  obtain ⟨-, -, hphase⟩ := retarget_of_no_standby ((standby_congr k.active k.health).trans hs)
  rw [hphase (by rw [settleEnded_role]; nofun), settleEnded_role]

theorem settled_timers (s : State) : (settleEnded s).retarget.role.lateWindow = .stopped ∧
    (settleEnded s).retarget.role.cutLimit = .stopped := by
  rw [retarget_role_rest, settleEnded_role]
  exact ⟨rfl, rfl⟩

theorem settled_onward (s : State) : Onward s (settleEnded s).retarget := (settleEnded_onward s).trans (retarget_onward _)

theorem settled_event (s : State) {ev : EventId} (h1 : ev ≠ .tableLevel) (h2 : ev ≠ .parkLevel) (h3 : ev ≠ .cutoverEnd) :
    (settleEnded s).retarget.event ev = s.event ev := by
  rw [retarget_event _ h1 h2, settleEnded_event, if_neg h3]

theorem Passes.lateBy {w : Timer} (k : Passes s t) (h : LateBy w s) : LateBy w t := by
  unfold LateBy
  rw [k.role]
  exact h

theorem lateBy_lasting (w : Timer) : Lasting (LateBy w) where
  passes := Passes.lateBy
  settles := fun _ hs _ => by
    unfold LateBy
    rw [settled_phase hs, (settled_timers _).1, if_pos rfl]

/-- R152, R153: the roles and CUTOVER_START as a cutover that has left QUIESCE leaves them. -/
structure UnderWay (w v : State) : Prop where
  cutover : cutoverOf v = cutoverOf w
  quiesce : v.role.quiesce = .stopped
  phase : v.role.phase ≠ .quiesce
  start : v.event .cutoverStart = w.event .cutoverStart
  late : LateBy w.role.lateWindow v

theorem UnderWay.onward {w : State} (h : UnderWay w s) (k : Onward s t) (hstart : t.event .cutoverStart = s.event .cutoverStart)
    (hlate : LateBy w.role.lateWindow t) : UnderWay w t :=
  ⟨(cutoverOf_onward k).trans h.cutover, by rw [k.role]; exact h.quiesce, k.phase h.phase, hstart.trans h.start, hlate⟩

theorem underWay_lasting (w : State) : Lasting (UnderWay w) where
  passes := fun k h => ⟨by rw [cutoverOf, k.role]; exact h.cutover, by rw [k.role]; exact h.quiesce,
    by rw [k.role]; exact h.phase, (k.events .cutoverStart nofun).trans h.start, k.lateBy h.late⟩
  settles := fun hd hs h => h.onward (settled_onward _) (settled_event _ nofun nofun nofun)
    ((lateBy_lasting _).settles hd hs h.late)

theorem marks_works (h : Marks s t) : Works s t := by
  unfold Marks at h
  unfold Works
  rw [h]

theorem recordTransfer_works (s : State) : Works s s.recordTransfer := rfl

theorem transferred_works (s : State) : Works (roleMoved s) (transferred s) := by
  have hswept : Works (roleMoved s) (swept s) := freeAll_works _ _
  have hmarked : Works (swept s) (swept s).markEntries := marks_works (markEntries_marks _)
  unfold transferred
  exact (hswept.trans hmarked).trans ((recordTransfer_works _).trans (toSettle_works _))

/-- R155: freeing entries ends no cutover. -/
theorem freeAll_underWay (hp : s.role.phase ≠ .none) (hs : List Nat) : (s.freeAll hs).role.phase ≠ .none := by
  induction hs generalizing s with
  | nil => exact hp
  | cons h hs ih =>
    refine ih ?_
    rw [freeEntry_role]
    split
    · rcases unmarkedRole_cases s.role with hc | ⟨-, hc⟩ <;> rw [hc]
      · exact hp
      · nofun
    · exact hp

theorem toSettle_underWay (hp : s.role.phase ≠ .none) : s.toSettle.role.phase ≠ .none := by
  rw [toSettle_role]
  split
  · nofun
  · exact hp

theorem transferred_underWay (s : State) : (transferred s).role.phase ≠ .none := by
  have hswept : (swept s).role.phase ≠ .none := freeAll_underWay (s := roleMoved s) nofun _
  refine toSettle_underWay ?_
  rw [recordTransfer_role, (markEntries_marks _).role]
  exact hswept

/-- R157: only a planned cutover begins a late window. -/
theorem transferred_lateBy (hk : s.role.kind ≠ some .planned) : LateBy s.role.lateWindow (transferred s) := by
  have hmoved : (roleMoved s).role.lateWindow = s.role.lateWindow := if_neg hk
  have hlate : (transferred s).role.lateWindow = s.role.lateWindow := by rw [← hmoved, transferred_works s]
  rw [LateBy, hlate, if_neg (transferred_underWay s)]

theorem makeTransfer_standby (hu : s.usable s.role.active = false) :
    s.makeTransfer.standby = none ∧ (transferred s).standby = none := by
  have hboth : ∀ {v : State}, Still (roleMoved s) v → v.standby = none := fun {v} k => by
    have hactive : v.role.active = s.role.active.other := k.active
    refine standby_of_unusable ?_
    rw [hactive, fw_other_other]
    exact (show v.usable s.role.active = s.usable s.role.active by simp only [State.usable, State.fw, k.health]; rfl).trans hu
  have hswept : Still (roleMoved s) (swept s) := freeAll_still _ _
  exact ⟨hboth (makeTransfer_still s), hboth (hswept.trans (transferred_held s).toStill)⟩

theorem makeTransfer_underWay (hu : s.usable s.role.active = false) (hk : s.role.kind ≠ some .planned) :
    UnderWay s s.makeTransfer := by
  have k := makeTransfer_onward s
  exact ⟨(cutoverOf_onward k).trans (cutoverOf_roleMoved s), by rw [k.role]; rfl, k.phase nofun,
    makeTransfer_event s nofun nofun nofun, (lateBy_lasting _).finish (makeTransfer_standby hu).2 (transferred_lateBy hk)⟩

theorem changeEnded_kept (s : State) (ph : CutPhase) (a b : RoleName) : Kept s (changeEnded s ph a b) :=
  ((evalFitness_held s).toStill.trans ((finish_still _).trans (sendRoleChanges_held _ ph a b).toStill)).toKept

/-- R153: a TRANSFER event made as the active firewall is lost, to its end. -/
theorem transfer_ended (hu : s.usable s.role.active = false) (hk : s.role.kind ≠ some .planned) (ph : CutPhase)
    (a b : RoleName) :
    s.transferredTo (changeEnded s.makeTransfer ph a b) s.role.active.other ∧
      UnderWay s (changeEnded s.makeTransfer ph a b) ∧
      (s.count .cutoversUnplanned < Config.counterMax →
        s.count .cutoversUnplanned < (changeEnded s.makeTransfer ph a b).count .cutoversUnplanned) := by
  have hs : s.makeTransfer.standby = none := (makeTransfer_standby hu).1
  let v := s.makeTransfer.evalFitness
  have hok : s.tableOk → v.tableOk := (evalFitness_held _).table ∘ (makeTransfer_moved s).table
  have hbefore : s.transferredTo v s.role.active.other := transferredTo_evalFitness (makeTransfer_transfers s)
  have hafter : s.transferredTo v.finish s.role.active.other :=
    transferredTo_trails hbefore hok (finish_trails ((evalFitness_standby _).trans hs))
  refine ⟨transferredTo_of_sends hafter (sendRoleChanges_sends v.finish ph a b),
    (underWay_lasting s).changeEnded hs (makeTransfer_underWay hu hk) ph a b, fun hc => ?_⟩
  obtain ⟨-, hmax⟩ := (makeTransfer_moved s).counts .cutoversUnplanned hc.le
  exact (makeTransfer_unplanned hk hc).trans_le ((changeEnded_kept _ ph a b).counts _ hmax).1

/-! ## The loss of a link reported (R69, R129, R132) -/

/-- R69, R129: the port DOWN, and with it the active firewall, not yet handed to the Role Controller. -/
def lossReported (s : State) (p : Port) : State := reported (unlinked s p) s.role.active

/-- What the report of a loss leaves for the Role Controller to judge. -/
structure Reports (s v : State) : Prop where
  role : v.role = s.role
  table : v.table = s.table
  decl : v.decl = s.decl
  mirror : v.mirror = s.mirror
  park : v.park = s.park
  params : v.params = s.params
  lost : v.usable s.role.active = false
  other : v.usable s.role.active.other = s.usable s.role.active.other
  counts : ∀ c, c ≠ .txDrop → v.count c = s.count c
  start : v.event .cutoverStart = s.event .cutoverStart

theorem lossReported_reports (s : State) (p : Port) : Reports s (lossReported s p) := by
  have hport := unlinked_sends s p
  have hfw := reported_sends (unlinked s p) s.role.active
  refine ⟨hfw.role.trans hport.role, hfw.table.trans hport.table, hfw.decl.trans hport.decl, hfw.mirror.trans hport.mirror,
    hfw.park.trans hport.park, hfw.params.trans hport.params, reported_unusable _ _, ?_, fun c hc => ?_, ?_⟩
  · have hother : (downed (unlinked s p) s.role.active).fw s.role.active.other = (unlinked s p).fw s.role.active.other :=
      (fw_setFw _ _ _ _).trans (if_neg (fw_other_ne _))
    have hkept : (lossReported s p).fw s.role.active.other = s.fw s.role.active.other := by
      rw [← unlinked_fw s p s.role.active.other, ← hother]
      simp only [State.fw, lossReported, hfw.health]
    simp only [State.usable, hkept]
  · exact (raise_count _ _ _ hc).trans (unlinked_count s p hc)
  · exact (raise_event _ _ _ _).trans ((unlinked_event s p .cutoverStart).trans (if_neg nofun))

/-- R132, R143: the loss handed to the Role Controller, as one event. -/
theorem linkDown_of_active {p : Port} (hf : p.fw? = some s.role.active) (hup : (s.port p).link = .up)
    (hd : (s.fw s.role.active).state.isDown = false) : ∃ ph a b, exec (.linkDown p) s =
      .next (changeEnded ((lossReported s p).activeChanged (.down .link)) ph a b) := by
  have hd' : ((unlinked s p).fw s.role.active).state.isDown = false := by rw [unlinked_fw]; exact hd
  have hrole := (lossReported_reports s p).role
  have hchange : (lossReported s p).healthChanged s.role.active (.down .link) =
      ((lossReported s p).activeChanged (.down .link)).evalFitness := by rw [State.healthChanged, if_pos (by rw [hrole])]
  have hexec : exec (.linkDown p) s = .next (s.linkFall p) := rfl
  refine ⟨(lossReported s p).role.phase, (unlinked s p).assigned .a, (unlinked s p).assigned .b, ?_⟩
  rw [hexec, linkFall_of_fw hup hf, linkLoss_of_not_down hd', changeEnded, ← hchange]
  rfl

/-- R143, R152, R161, R162: the active firewall DOWN, by the phase. -/
theorem activeChanged_of_none (r : DownReason) (hp : s.role.phase = .none) : s.activeChanged (.down r) =
    if s.usable s.role.active.other then s.unplanned .failure else s.goDark 1 := by
  simp [State.activeChanged, HealthState.isDown, hp]

theorem activeChanged_of_quiesce (r : DownReason) (hp : s.role.phase = .quiesce) : s.activeChanged (.down r) = s.loseSource := by
  simp [State.activeChanged, HealthState.isDown, hp]

theorem activeChanged_of_moved (r : DownReason) (hp : s.role.phase = .transfer ∨ s.role.phase = .settle) :
    s.activeChanged (.down r) = if s.usable s.role.active.other then s.cutBack else s.secondDark := by
  rcases hp with hp | hp <;> simp [State.activeChanged, HealthState.isDown, hp]

/-! ## In phase NONE (R143, R153) -/

theorem goDark_sends (s : State) (n : Nat) : Sends { s with role := { s.role with dark := true } } (s.goDark n) :=
  raise_sends _ _ _

theorem goDark_flag (s : State) (n : Nat) : ((s.goDark n).event .dark).flag = true := by
  have hev : (s.goDark n).event .dark = (s.event .dark).next := (raise_event _ _ _ _).trans (if_pos rfl)
  rw [hev, next_eq]

theorem evalFitness_of_no_standby (hs : s.standby = none) :
    s.evalFitness = { s with role := { s.role with dwell := .stopped } } := by
  simp [State.evalFitness, State.nextDwell, State.fitnessHolds, hs]

/-- R143: no firewall can take over, and the part goes dark. -/
theorem goDark_ended (hs : s.standby = none) (hp : s.role.phase = .none) (hm : s.mirror.state ≠ .walking) (n : Nat)
    (ph : CutPhase) (a b : RoleName) :
    (changeEnded (s.goDark n) ph a b).role = { s.role with dark := true, dwell := .stopped } ∧
      ((changeEnded (s.goDark n) ph a b).event .dark).flag = true ∧ (changeEnded (s.goDark n) ph a b).table = s.table ∧
      (changeEnded (s.goDark n) ph a b).mirror = s.mirror ∧ (changeEnded (s.goDark n) ph a b).decl = s.decl := by
  have kdark := goDark_sends s n
  have hdark : (s.goDark n).standby = none := (standby_congr (by rw [kdark.role]) kdark.health).trans hs
  have hfinish : (s.goDark n).evalFitness.finish = (s.goDark n).evalFitness :=
    finish_of_quiet ⟨by rw [evalFitness_mirror, kdark.mirror]; exact hm, by
      rw [evalFitness_of_no_standby hdark, kdark.role]
      rw [hp]
      nofun⟩
  have ksend : Sends (s.goDark n).evalFitness (changeEnded (s.goDark n) ph a b) := by
    rw [changeEnded, hfinish]
    exact sendRoleChanges_sends _ ph a b
  refine ⟨?_, (changeEnded_kept _ ph a b).flags _ (goDark_flag s n), ksend.table.trans kdark.table,
    ksend.mirror.trans kdark.mirror, ksend.decl.trans kdark.decl⟩
  rw [ksend.role, evalFitness_of_no_standby hdark, kdark.role]

/-- R153: the cutover as it has been started. -/
theorem started_role (s : State) (r : CutReason) : (started s r).role = { s.role with
    kind := some .unplanned, reason := some r, source := some s.role.active, dest := some s.role.active.other
    record := .zero } :=
  (started_sends s r).role

/-- R143, R153: the other firewall takes over. -/
theorem unplanned_ended (hu : s.usable s.role.active = false) (r : CutReason) (ph : CutPhase) (a b : RoleName) :
    s.transferredTo (changeEnded (s.unplanned r) ph a b) s.role.active.other ∧
      UnderWay (started s r) (changeEnded (s.unplanned r) ph a b) ∧
      (s.count .cutoversUnplanned < Config.counterMax →
        s.count .cutoversUnplanned < (changeEnded (s.unplanned r) ph a b).count .cutoversUnplanned) := by
  have hrole := started_role s r
  have hactive : (started s r).role.active = s.role.active := by rw [hrole]
  have hcount : (started s r).count .cutoversUnplanned = s.count .cutoversUnplanned := raise_count _ _ _ (by decide)
  have hlost : (started s r).usable (started s r).role.active = false := by
    rw [hactive]
    exact (show (started s r).usable s.role.active = s.usable s.role.active by
      simp only [State.usable, State.fw, (started_sends s r).health]; rfl).trans hu
  obtain ⟨hmove, hway, hcounted⟩ := transfer_ended hlost (by rw [hrole]; nofun) ph a b
  rw [hactive] at hmove
  rw [hcount] at hcounted
  exact ⟨transferredTo_of_same hmove (started_table s r) (started_decl s r) (started_params s r) (by rw [hrole]),
    hway, hcounted⟩

/-! ## In QUIESCE (R152) -/

/-- R152: the cutover UNPLANNED, its quiesce timer stopped. -/
def sourceLost (s : State) : State := { s with role := { s.role with kind := some .unplanned, quiesce := .stopped } }

theorem loseSource_eq (s : State) : s.loseSource = (sourceLost s).makeTransfer := rfl

theorem loseSource_ended (hu : s.usable s.role.active = false) (ph : CutPhase) (a b : RoleName) :
    s.transferredTo (changeEnded s.loseSource ph a b) s.role.active.other ∧
      UnderWay (sourceLost s) (changeEnded s.loseSource ph a b) ∧
      (s.count .cutoversUnplanned < Config.counterMax →
        s.count .cutoversUnplanned < (changeEnded s.loseSource ph a b).count .cutoversUnplanned) := by
  obtain ⟨hmove, hway, hcounted⟩ := transfer_ended (s := sourceLost s) hu nofun ph a b
  rw [loseSource_eq]
  exact ⟨transferredTo_of_same hmove rfl rfl rfl rfl, hway, hcounted⟩

end Sys2Proof.Roles

/-! The cut-back (R161): the active firewall lost in TRANSFER or SETTLE while the other one can take the role back. -/

namespace Sys2Proof.Roles

open Sys2Proof Sys2Proof.Machine Sys2Proof.Laws Sys2Proof.SessionTable Sys2Proof.Cutover Sys2Proof.FramePath
  Sys2Proof.MirrorChannel Sys2Proof.FirewallHealth

variable {s t u : State}

/-! ## The Release Queue as entries are freed (R8, R177) -/

theorem discardFrames_queue (s : State) (ps : List Parked) : (s.discardFrames ps).park.releaseQueue = s.park.releaseQueue := by
  induction ps generalizing s with
  | nil => rfl
  | cons p ps ih => rw [discardFrames_cons, ih]; exact (freeCells_park s p).2

/-- From `s` to `t` the Release Queue has lost the handle, or nothing. -/
def Dequeues (h : Nat) (s t : State) : Prop :=
  t.park.releaseQueue = s.park.releaseQueue ∨ t.park.releaseQueue = s.park.releaseQueue.filter (· != h)

theorem discardChain_dequeues (s : State) (h : Nat) : Dequeues h s (s.discardChain h) := by
  cases he : s.entry? h with
  | none => exact .inl (by rw [discardChain_of_none he])
  | some e =>
    refine .inr ?_
    rw [discardChain_of_entry he]
    refine congrArg (List.filter (· != h)) ?_
    rw [modifyEntry_park, discardFrames_queue]

theorem compareTable_park (s : State) : s.compareTable.park = s.park := by rw [compareTable_raises s]

theorem removeEntry_park (s : State) (h : Nat) (e : Entry) : (s.removeEntry h e).park = s.park := compareTable_park _

theorem freeEntry_dequeues (s : State) (h : Nat) : Dequeues h s (s.freeEntry h) := by
  cases he : s.entry? h with
  | none => exact .inl (by rw [freeEntry_of_none he])
  | some e =>
    let v := ((unblocked s h e).unqueue h).settleWalk h
    have hbefore : v.park = s.park := by
      rw [(settleWalk_lanes _ h).park, (unqueue_lanes _ h).park, (unblocked_lanes s h e).park]
    have hafter : (s.freeEntry h).park = (v.discardChain h).park := by
      rw [freeEntry_of_entry he, removeEntry_park, cleared, unmark_park]
    have k := discardChain_dequeues v h
    unfold Dequeues at k ⊢
    rwa [← hafter, hbefore] at k

theorem Dequeues.mem {g h : Nat} (k : Dequeues h s t) (hne : g ≠ h) (hg : g ∈ s.park.releaseQueue) :
    g ∈ t.park.releaseQueue := by
  rcases k with k | k <;> rw [k]
  · exact hg
  · exact List.mem_filter.mpr ⟨hg, bne_iff_ne.mpr hne⟩

theorem Dequeues.nil {h : Nat} (k : Dequeues h s t) (hnil : s.park.releaseQueue = []) : t.park.releaseQueue = [] := by
  rcases k with k | k <;> rw [k, hnil]
  rfl

theorem freeAll_queue_mem {hs : List Nat} {g : Nat} (hne : g ∉ hs) (hg : g ∈ s.park.releaseQueue) :
    g ∈ (s.freeAll hs).park.releaseQueue := by
  induction hs generalizing s with
  | nil => exact hg
  | cons h hs ih =>
    obtain ⟨h1, h2⟩ := List.ne_and_not_mem_of_not_mem_cons hne
    exact ih h2 ((freeEntry_dequeues s h).mem h1 hg)

theorem freeAll_queue_nil (hs : List Nat) (hnil : s.park.releaseQueue = []) : (s.freeAll hs).park.releaseQueue = [] := by
  induction hs generalizing s with
  | nil => exact hnil
  | cons h hs ih => exact ih ((freeEntry_dequeues s h).nil hnil)

/-! ## The mirror target dropped (R117) -/

theorem untargeted_held (s : State) : Held s (untargeted s) := (mapEntries_held s phase_forget).trans (mirror_held _ _)

/-- R117: only RETIRING entries leave the Release Queue with the target. -/
theorem targetLoss_queue_mem (hok : s.tableOk) {g : Nat} (hp : s.phase g ≠ .retiring) (hg : g ∈ s.park.releaseQueue) :
    g ∈ s.targetLoss.park.releaseQueue := by
  refine freeAll_queue_mem (s := untargeted s) (fun k => hp ?_) hg
  rw [← phase_of_map ((untargeted_held s).phase? hok g)]
  exact (mem_handlesIn (by decide)).mp k

theorem dropTarget_cases (s : State) : (s.dropTarget = s ∧ s.mirror.target = none) ∨ s.dropTarget = s.targetLoss := by
  unfold State.dropTarget
  split
  · exact .inl ⟨rfl, by assumption⟩
  · exact .inr rfl

theorem dropTarget_target (s : State) : s.dropTarget.mirror.target = none := by
  rcases dropTarget_cases s with ⟨h, ht⟩ | h <;> rw [h]
  · exact ht
  · exact (targetLoss_mirror s).1

theorem dropTarget_frees (s : State) : Frees s s.dropTarget := by
  rcases dropTarget_cases s with ⟨h, -⟩ | h <;> rw [h]
  · exact .refl s
  · exact targetLoss_frees s

theorem dropTarget_role (hok : s.tableOk) (hm : ∀ g, s.isMarked g = false) : s.dropTarget.role = s.role := by
  rcases dropTarget_cases s with ⟨h, -⟩ | h <;> rw [h]
  exact abandonMirror_role hok hm _ _ _ _

theorem dropTarget_isMarked (hok : s.tableOk) (hm : ∀ g, s.isMarked g = false) (g : Nat) : s.dropTarget.isMarked g = false := by
  rcases dropTarget_cases s with ⟨h, -⟩ | h <;> rw [h]
  · exact hm g
  · exact abandonMirror_isMarked hok hm _ _ _ _ g

theorem dropTarget_queue_mem (hok : s.tableOk) {g : Nat} (hp : s.phase g ≠ .retiring) (hg : g ∈ s.park.releaseQueue) :
    g ∈ s.dropTarget.park.releaseQueue := by
  rcases dropTarget_cases s with ⟨h, -⟩ | h <;> rw [h]
  · exact hg
  · exact targetLoss_queue_mem hok hp hg

/-! ## A cutover aborted (R161, R162) -/

theorem raiseAbort_sends (s : State) (ph : CutPhase) : Sends s (s.raiseAbort ph) :=
  (raise_sends s .cutoverAbort _).trans (show Sends _ (State.inc _ .cutoverAborts) from rfl)

theorem raiseAbort_count (s : State) (ph : CutPhase) :
    (s.raiseAbort ph).count .cutoverAborts = min (s.count .cutoverAborts + 1) Config.counterMax := by
  rw [State.raiseAbort, count_inc, if_pos rfl, raise_count _ _ _ (by decide)]

theorem raiseAbort_count_other (s : State) (ph : CutPhase) {c : Counter} (h1 : c ≠ .txDrop) (h2 : c ≠ .cutoverAborts) :
    (s.raiseAbort ph).count c = s.count c := by
  rw [State.raiseAbort, count_inc, if_neg h2, raise_count _ _ _ h1]

theorem raiseAbort_flag (s : State) (ph : CutPhase) : ((s.raiseAbort ph).event .cutoverAbort).flag = true := by
  rw [State.raiseAbort, event_inc, raise_event, if_pos rfl, next_eq]

/-! ## Every mark released (R155) -/

theorem clearMark_released_count (s : State) (h : Nat) {c : Counter} (hc : c ≠ .releasedUnconfirmed) :
    (s.clearMark h .released).count c = s.count c := by
  cases hm : s.isMarked h with
  | false => rw [clearMark_of_unmarked _ hm]
  | true =>
    simp only [State.count, clearMark_released_counters hm]
    exact (count_inc s c .releasedUnconfirmed).trans (if_neg hc)

theorem clearAllMarks_count (s : State) {c : Counter} (hc : c ≠ .releasedUnconfirmed) :
    (s.clearAllMarks .released).count c = s.count c := by
  have hfold : ∀ (hs : List Nat) (v : State), (hs.foldl (fun t h => t.clearMark h .released) v).count c = v.count c := by
    intro hs
    induction hs with
    | nil => exact fun v => rfl
    | cons h hs ih => exact fun v => (ih _).trans (clearMark_released_count v h hc)
  exact hfold _ s

theorem settled_count (hs : s.standby = none) : (settleEnded s).retarget.count .cutoverAborts = s.count .cutoverAborts := by
  have k := settleEnded_held s
  obtain ⟨-, hfrees, -⟩ := retarget_of_no_standby ((standby_congr k.active k.health).trans hs)
  refine (hfrees.counts _ (by decide) (by decide) (by decide)).trans ((raise_count _ _ _ (by decide)).trans ?_)
  exact clearAllMarks_count s (by decide)

/-- R155, R171: the handle is that of a marked entry with a chain. -/
def Holds (s : State) (h : Nat) : Prop := ∃ e, s.entry? h = some e ∧ e.marked = true ∧ e.chain ≠ []

theorem Holds.phase {h : Nat} (hh : Holds s h) : s.phase h = .live := by
  obtain ⟨e, he, hm, -⟩ := hh
  rw [phase_of_entry he]
  cases hb : e.body <;> simp [Entry.marked, Entry.live?, hb, Entry.phase] at hm ⊢

theorem clearMark_queue_mem {g : Nat} (s : State) (h : Nat) (hg : g ∈ s.park.releaseQueue ∨ (g = h ∧ Holds s g)) :
    g ∈ (s.clearMark h .released).park.releaseQueue := by
  cases hm : s.isMarked h with
  | false =>
    rw [clearMark_of_unmarked _ hm]
    refine hg.resolve_right fun ⟨hgh, e, he, hme, _⟩ => ?_
    rw [← hgh, isMarked_of_entry he, hme] at hm
    cases hm
  | true =>
    obtain ⟨e, he, hme⟩ := entry_of_isMarked hm
    rw [clearMark_queue _ he hme, List.mem_append]
    refine hg.imp_right fun ⟨hgh, x, hx, _, hc⟩ => ?_
    subst hgh
    obtain rfl : x = e := Option.some.inj (hx.symm.trans he)
    simp [hc]

/-- R171: the chains of the marked entries have joined the Release Queue. -/
theorem clearAllMarks_queue_mem {g : Nat} (hg : Holds s g) : g ∈ (s.clearAllMarks .released).park.releaseQueue := by
  have hfold : ∀ (hs : List Nat) (v : State), g ∈ v.park.releaseQueue ∨ (g ∈ hs ∧ Holds v g) →
      g ∈ (hs.foldl (fun t h => t.clearMark h .released) v).park.releaseQueue := by
    intro hs
    induction hs with
    | nil => exact fun v k => k.resolve_right fun ⟨hmem, _⟩ => List.not_mem_nil hmem
    | cons h hs ih =>
      refine fun v k => ih _ ?_
      rcases k with k | ⟨hmem, hh⟩
      · exact .inl (clearMark_queue_mem v h (.inl k))
      · by_cases hgh : g = h
        · exact .inl (clearMark_queue_mem v h (.inr ⟨hgh, hh⟩))
        · refine .inr ⟨(List.mem_cons.mp hmem).resolve_left hgh, ?_⟩
          unfold Holds
          rw [clearMark_others v h _ g hgh]
          exact hh
  obtain ⟨e, he, hm, hc⟩ := hg
  exact hfold _ s (.inr ⟨List.mem_filter.mpr ⟨mem_handles he, (isMarked_of_entry he).trans hm⟩, e, he, hm, hc⟩)

/-! ## The cut-back (R161) -/

/-- R161: the active role back at the other firewall, nothing released yet. -/
def cutMoved (s : State) : State := { s with
  decl := s.decl.set s.role.active.other none
  role := { s.role with
    active := s.role.active.other, epoch := s.role.epoch + 1, holdDown := .start (s.param .holdDown) } }

/-- R161: every mark released and the phase SETTLE. -/
def cutSettled (s : State) : State := { (cutMoved s).clearAllMarks .released with
  role := { ((cutMoved s).clearAllMarks .released).role with lateWindow := .stopped, phase := .settle } }

/-- R161: the cutover aborted and its target dropped, the tests that end the event not yet made. -/
def cutAborted (s : State) : State := (cutSettled s).dropTarget.raiseAbort s.role.phase

theorem cutBack_eq (s : State) : s.cutBack = (cutAborted s).finish := rfl

/-- R161: what a cut-back leaves, to the end of its event. -/
structure CutBack (s t : State) : Prop where
  ok : t.tableOk
  moved : s.movedTo t s.role.active.other
  cutover : cutoverOf t = cutoverOf s
  holdDown : t.role.holdDown = Timer.start (s.param .holdDown)
  late : t.role.lateWindow = .stopped
  phase : t.role.phase = .settle ∨ t.role.phase = .none
  limit : t.role.phase = .settle → t.role.cutLimit = s.role.cutLimit
  target : t.mirror.target = none
  marks : ∀ h, t.isMarked h = false
  queue : ∀ h, Holds s h → h ∈ t.park.releaseQueue
  flag : (t.event .cutoverAbort).flag = true
  count : t.count .cutoverAborts = min (s.count .cutoverAborts + 1) Config.counterMax

/-- SETTLE ends with an empty Release Queue alone, so it does not end while a chain that was held waits there. -/
theorem CutBack.settles {x : State} (h : CutBack s x) (hd : x.settleDone = true) (hs : x.standby = none) :
    CutBack s (settleEnded x).retarget := by
  have kheld := settleEnded_held x
  have kstill : Still x (settleEnded x).retarget := kheld.toStill.trans (retarget_still _)
  have konward := settled_onward x
  obtain ⟨hactive, hepoch, hown, hother⟩ := h.moved
  obtain ⟨hlate, -⟩ := settled_timers x
  obtain ⟨htarget, -, -⟩ := retarget_of_no_standby ((standby_congr kheld.active kheld.health).trans hs)
  have hphase := settled_phase hs
  have hempty : x.park.releaseQueue = [] := by
    simp only [State.settleDone, Bool.and_eq_true, List.isEmpty_iff] at hd
    exact hd.1.2
  exact {
    ok := kstill.table h.ok
    moved := ⟨kstill.active.trans hactive, kstill.epoch.trans hepoch, by rw [kstill.decl, hown], by rw [kstill.decl, hother]⟩
    cutover := (cutoverOf_onward konward).trans h.cutover
    holdDown := by rw [konward.role]; exact h.holdDown
    late := hlate
    phase := .inr hphase
    limit := fun k => by rw [hphase] at k; cases k
    target := htarget
    marks := retarget_isMarked (settleEnded_tableOk h.ok) (settleEnded_isMarked x)
    queue := fun g hg => by
      have hmem := h.queue g hg
      rw [hempty] at hmem
      exact absurd hmem List.not_mem_nil
    flag := by rw [settled_event x (ev := .cutoverAbort) nofun nofun nofun]; exact h.flag
    count := (settled_count hs).trans h.count }

theorem cutBack_lasting (s : State) : Lasting (CutBack s) where
  passes := fun k h => by
    obtain ⟨hactive, hepoch, hown, hother⟩ := h.moved
    have hrole := k.role
    exact {
      ok := k.tableOk h.ok
      moved := ⟨by rw [hrole]; exact hactive, by rw [hrole]; exact hepoch, by rw [k.decl, hown], by rw [k.decl, hother]⟩
      cutover := by rw [cutoverOf, hrole]; exact h.cutover
      holdDown := by rw [hrole]; exact h.holdDown
      late := by rw [hrole]; exact h.late
      phase := by rw [hrole]; exact h.phase
      limit := by rw [hrole]; exact h.limit
      target := k.target.trans h.target
      marks := fun g => (isMarked_of_same (k.entry g)).trans (h.marks g)
      queue := fun g hg => by rw [k.park]; exact h.queue g hg
      flag := by rw [k.events .cutoverAbort nofun]; exact h.flag
      count := (k.counts _ (by decide)).trans h.count }
  settles := fun hd hs h => h.settles hd hs

theorem cutSettled_held (s : State) : Held (cutMoved s) (cutSettled s) :=
  (clearAllMarks_held _ .released).trans (role_held _ rfl rfl)

theorem cutSettled_isMarked (s : State) (g : Nat) : (cutSettled s).isMarked g = false :=
  clearAllMarks_isMarked (cutMoved s) .released g

theorem cutSettled_role (s : State) : (cutSettled s).role = { (cutMoved s).role with
    lateWindow := .stopped, phase := .settle, marked := (cutSettled s).role.marked, record := (cutSettled s).role.record } := by
  have k := (clearAllMarks_marksOff (cutMoved s)).role
  unfold cutSettled
  dsimp only
  rw [k]

/-- R161: what the cut-back leaves before the tests that end its event. -/
theorem cutAborted_cutBack (hok : s.tableOk) : CutBack s (cutAborted s) := by
  have khold : Held (cutMoved s) (cutSettled s) := cutSettled_held s
  have hok' : (cutSettled s).tableOk := khold.table hok
  have hmarks := cutSettled_isMarked s
  have ksend := raiseAbort_sends (cutSettled s).dropTarget s.role.phase
  have hrole : (cutAborted s).role = (cutSettled s).role := ksend.role.trans (dropTarget_role hok' hmarks)
  have hrest := cutSettled_role s
  have hdecl : (cutAborted s).decl = s.decl.set s.role.active.other none :=
    ksend.decl.trans ((dropTarget_still _).decl.trans khold.decl)
  exact {
    ok := (raiseAbort_held _ _).table ((dropTarget_still _).table hok')
    moved := ⟨by rw [hrole, hrest]; rfl, by rw [hrole, hrest]; rfl, by rw [hdecl]; simp,
      by rw [hdecl]; simpa using fun h => absurd h.symm (fw_other_ne s.role.active)⟩
    cutover := by rw [cutoverOf, hrole, hrest]; rfl
    holdDown := by rw [hrole, hrest]; rfl
    late := by rw [hrole, hrest]
    phase := by rw [hrole, hrest]; exact .inl rfl
    limit := fun _ => by rw [hrole, hrest]; rfl
    target := by rw [cutAborted, ksend.mirror, dropTarget_target]
    marks := fun g => (isMarked_of_sends ksend g).trans (dropTarget_isMarked hok' hmarks g)
    queue := fun g hg => by
      have hlive : (cutSettled s).phase g = .live := (phase_of_map (khold.phase? hok g)).trans hg.phase
      rw [cutAborted, ksend.park]
      exact dropTarget_queue_mem hok' (by rw [hlive]; decide) (clearAllMarks_queue_mem (s := cutMoved s) hg)
    flag := raiseAbort_flag _ _
    count := by
      rw [cutAborted, raiseAbort_count, (dropTarget_frees _).counts _ (by decide) (by decide) (by decide)]
      exact congrArg (fun n => min (n + 1) Config.counterMax) (clearAllMarks_count (cutMoved s) (by decide)) }

theorem cutAborted_standby (hu : s.usable s.role.active = false) (hok : s.tableOk) : (cutAborted s).standby = none := by
  obtain ⟨hactive, -⟩ := (cutAborted_cutBack hok).moved
  have hhealth : (cutAborted s).health = s.health :=
    (raiseAbort_sends _ _).health.trans ((dropTarget_still _).health.trans (cutSettled_held s).health)
  refine standby_of_unusable ?_
  rw [hactive, fw_other_other]
  simpa only [State.usable, State.fw, hhealth] using hu

/-- R161: the cut-back to the end of its event. -/
theorem cutBack_ended (hu : s.usable s.role.active = false) (hok : s.tableOk) (ph : CutPhase) (a b : RoleName) :
    CutBack s (changeEnded s.cutBack ph a b) := by
  have hs := cutAborted_standby hu hok
  have hfinish : (cutAborted s).finish.standby = none :=
    (standby_congr (finish_still _).active (finish_still _).health).trans hs
  rw [cutBack_eq]
  exact (cutBack_lasting s).changeEnded hfinish ((cutBack_lasting s).finish hs (cutAborted_cutBack hok)) ph a b

end Sys2Proof.Roles

/-! A second failure (R162): the active firewall lost in TRANSFER or SETTLE with no other to take the role back; and with it the
whole of what the loss of a link of the active firewall comes to. -/

namespace Sys2Proof.Roles

open Sys2Proof Sys2Proof.Machine Sys2Proof.Laws Sys2Proof.SessionTable Sys2Proof.Cutover Sys2Proof.FramePath
  Sys2Proof.MirrorChannel Sys2Proof.FirewallHealth

variable {s t u : State}

/-! ## Frames discarded and counted (R177) -/

theorem discardFrames_discarded (s : State) (ps : List Parked) :
    (s.discardFrames ps).count .parkDiscarded = raisedBy (s.count .parkDiscarded) ps.length Config.counterMax := by
  induction ps generalizing s with
  | nil => rfl
  | cons p ps ih =>
    have hone : ((s.freeCells p).inc .parkDiscarded).count .parkDiscarded =
        raisedBy (s.count .parkDiscarded) 1 Config.counterMax := by
      rw [count_inc, if_pos rfl, freeCells_count s p (by decide)]
      rfl
    rw [discardFrames_cons, ih, hone, raisedBy_add, List.length_cons, Nat.add_comm]

/-- The number of frames in the chain of the entry at a handle. -/
def chainLength (s : State) (h : Nat) : Nat := ((s.entry? h).map (·.chain.length)).getD 0

theorem chainLength_of_same {h : Nat} (he : t.entry? h = s.entry? h) : chainLength t h = chainLength s h := by
  simp only [chainLength, he]

/-- Only a LIVE entry has a chain. -/
theorem chainLength_of_not_live {h : Nat} (hp : s.phase h ≠ .live) : chainLength s h = 0 := by
  unfold chainLength
  cases he : s.entry? h with
  | none => rfl
  | some e =>
    rw [phase_of_entry he] at hp
    cases hb : e.body <;> simp_all [Entry.phase, Entry.chain, Entry.live?]

theorem discardChain_discarded (s : State) (h : Nat) : (s.discardChain h).count .parkDiscarded =
    raisedBy (s.count .parkDiscarded) (chainLength s h) Config.counterMax := by
  unfold chainLength
  cases he : s.entry? h with
  | none => rw [discardChain_of_none he]; rfl
  | some e =>
    rw [discardChain_of_entry he]
    exact ((modifyEntry_lanes _ h _).count _).trans (discardFrames_discarded s e.chain)

/-- R177: the chains of distinct handles discarded. -/
theorem foldl_discardChain_discarded {hs : List Nat} (hn : hs.Nodup) (s : State) :
    (hs.foldl State.discardChain s).count .parkDiscarded =
      raisedBy (s.count .parkDiscarded) (hs.map (chainLength s)).sum Config.counterMax := by
  induction hs generalizing s with
  | nil => rfl
  | cons h hs ih =>
    obtain ⟨hh, hn⟩ := List.nodup_cons.mp hn
    have hrest : hs.map (chainLength (s.discardChain h)) = hs.map (chainLength s) := List.map_congr_left fun g hg =>
      chainLength_of_same (discardChain_others s h g fun k => hh (k ▸ hg))
    rw [List.foldl_cons, ih hn, hrest, discardChain_discarded, raisedBy_add, List.map_cons, List.sum_cons]

theorem chainLength_sum (hok : s.tableOk) :
    (s.handles.map (chainLength s)).sum = (s.table.entries.map (fun x => x.2.chain.length)).sum := by
  rw [State.handles, List.map_map]
  refine congrArg List.sum (List.map_congr_left fun x hx => ?_)
  rw [Function.comp_apply, chainLength, entry?_of_mem hok hx]
  rfl

/-! ## Freeing what has no chain (R8) -/

theorem freeEntry_discarded (hok : s.tableOk) {h : Nat} (hp : s.phase h ≠ .live) :
    (s.freeEntry h).count .parkDiscarded = s.count .parkDiscarded := by
  cases he : s.entry? h with
  | none => rw [freeEntry_of_none he]
  | some e =>
    let v := ((unblocked s h e).unqueue h).settleWalk h
    have kunblocked : Held s (unblocked s h e) :=
      .ite (fun _ => releaseWaiters_held s _) (fun _ => (releaseWaiters_held s _).trans (leaveBlocks_held _ h))
    have kheld : Held s v := (kunblocked.trans (unqueue_held _ h)).trans (settleWalk_held _ h)
    have hbare : chainLength v h = 0 := chainLength_of_not_live (by rw [phase_of_map (kheld.phase? hok h)]; exact hp)
    have hcount : (cleared s h e).count .parkDiscarded = (v.discardChain h).count .parkDiscarded := by
      simp only [State.count, cleared, unmark_counters]
      rfl
    rw [freeEntry_of_entry he, removeEntry_count _ _ _ (by decide), if_neg (by decide), hcount, discardChain_discarded, hbare,
      raisedBy_zero, (settleWalk_lanes _ h).count, (unqueue_lanes _ h).count, (unblocked_lanes s h e).count]

theorem freeAll_discarded {hs : List Nat} (hok : s.tableOk) (hp : ∀ h ∈ hs, s.phase h ≠ .live) :
    (s.freeAll hs).count .parkDiscarded = s.count .parkDiscarded := by
  induction hs generalizing s with
  | nil => rfl
  | cons h hs ih =>
    obtain ⟨hok', hphase⟩ := freeEntry_thins s h hok
    have hrest : ∀ g ∈ hs, (s.freeEntry h).phase g ≠ .live := fun g hg => by
      rcases hphase g with k | k <;> rw [k]
      · exact hp g (List.mem_cons_of_mem h hg)
      · decide
    rw [freeAll_cons, ih hok' hrest, freeEntry_discarded hok (hp h List.mem_cons_self)]

theorem dropTarget_discarded (hok : s.tableOk) : s.dropTarget.count .parkDiscarded = s.count .parkDiscarded := by
  rcases dropTarget_cases s with ⟨h, -⟩ | h <;> rw [h]
  refine freeAll_discarded (s := untargeted s) (untargeted_tableOk hok) fun g hg => ?_
  have hret : (untargeted s).phase g = .retiring := (mem_handlesIn (by decide)).mp hg
  rw [hret]
  decide

theorem dropTarget_queue_nil (hnil : s.park.releaseQueue = []) : s.dropTarget.park.releaseQueue = [] := by
  rcases dropTarget_cases s with ⟨h, -⟩ | h <;> rw [h]
  · exact hnil
  · exact freeAll_queue_nil (s := untargeted s) _ hnil

/-! ## Every mark and every chain given up (R162) -/

/-- R162: what a second failure makes of the fields of a LIVE entry. -/
def givenUp (l : LivePart) : LivePart := { l with marked := false, chain := [] }

theorem unmarkAll_entry (hok : s.tableOk) (h : Nat) :
    s.unmarkAll.entry? h = (s.entry? h).map (·.mapLive (fun l => { l with marked := false })) := by
  refine (foldl_entry unmark_held unmark_others unmark_self hok ((handles_nodup hok).filter _) h).trans ?_
  split
  · rfl
  · rename_i hh
    rw [← unmark_self, unmark_of_unmarked (not_marked_of_not_listed hh)]

theorem discardAll_entry (hok : s.tableOk) (h : Nat) :
    s.discardAll.entry? h = (s.entry? h).map (·.mapLive (fun l => { l with chain := [] })) := by
  refine (foldl_entry discardChain_held discardChain_others discardChain_self hok (handles_nodup hok) h).trans ?_
  split
  · rfl
  · rename_i hh
    rw [entry?_of_not_listed hh]
    rfl

theorem held_handles (k : Held s t) (hok : s.tableOk) : t.handles = s.handles := by
  have hfst : ∀ es : SMap Entry, es.map (·.1) = (shape es).map (·.1) := fun es => by rw [shape, List.map_map]; rfl
  rw [State.handles, State.handles, hfst, hfst, k.shape hok]

theorem unmarkAll_chainLength (hok : s.tableOk) (h : Nat) : chainLength s.unmarkAll h = chainLength s h := by
  rw [chainLength, unmarkAll_entry hok, Option.map_map, chainLength]
  refine congrArg (Option.getD · 0) (Option.map_congr fun e _ => ?_)
  cases hb : e.body <;> simp [Entry.mapLive, Entry.chain, Entry.live?, hb]

theorem unmarkAll_counters (s : State) : s.unmarkAll.counters = s.counters := by
  have hfold : ∀ (hs : List Nat) (v : State), (hs.foldl State.unmark v).counters = v.counters := by
    intro hs
    induction hs with
    | nil => exact fun v => rfl
    | cons h hs ih => exact fun v => (ih _).trans (unmark_counters v h)
  exact hfold _ s

theorem unmarkAll_works (s : State) : Works s s.unmarkAll := .foldl unmark_works _ s

theorem discardAll_role (s : State) : s.discardAll.role = s.role := (Tends.foldl discardChain_tends s.handles s).role

theorem discardAll_count (s : State) {c : Counter} (hc : c ≠ .txDrop) (hd : c ≠ .parkDiscarded) :
    s.discardAll.count c = s.count c := by
  have hfold : ∀ (hs : List Nat) (v : State), (hs.foldl State.discardChain v).count c = v.count c := by
    intro hs
    induction hs with
    | nil => exact fun v => rfl
    | cons h hs ih => exact fun v => (ih _).trans (discardChain_count v h hc hd)
  exact hfold _ s

/-- R162: nothing marked, nothing parked, and the phase NONE. -/
def darkCleared (s : State) : State :=
  { s.unmarkAll.discardAll with
    role := { s.unmarkAll.discardAll.role with lateWindow := .stopped, cutLimit := .stopped, phase := .none } }

theorem darkCleared_held (s : State) : Held s (darkCleared s) :=
  ((unmarkAll_held s).trans (discardAll_held _)).trans (role_held _ rfl rfl)

theorem darkCleared_entry (hok : s.tableOk) (h : Nat) : (darkCleared s).entry? h = (s.entry? h).map (·.mapLive givenUp) := by
  refine (discardAll_entry ((unmarkAll_held s).table hok) h).trans ?_
  rw [unmarkAll_entry hok, Option.map_map]
  refine Option.map_congr fun e _ => ?_
  cases hb : e.body <;> simp [Entry.mapLive, givenUp, hb]

theorem darkCleared_isMarked (hok : s.tableOk) (h : Nat) : (darkCleared s).isMarked h = false := by
  rw [State.isMarked, darkCleared_entry hok]
  cases he : s.entry? h with
  | none => rfl
  | some e => cases hb : e.body <;> simp [Entry.mapLive, Entry.marked, Entry.live?, givenUp, hb]

theorem darkCleared_role (s : State) : (darkCleared s).role = { s.role with
    lateWindow := .stopped, cutLimit := .stopped, phase := .none, marked := (darkCleared s).role.marked
    record := (darkCleared s).role.record } := by
  have k : s.unmarkAll.discardAll.role = { s.role with
      phase := s.unmarkAll.role.phase, marked := s.unmarkAll.role.marked, record := s.unmarkAll.role.record } :=
    (discardAll_role _).trans (congrArg State.role (unmarkAll_works s))
  unfold darkCleared
  dsimp only
  rw [k]

theorem darkCleared_discarded (hok : s.tableOk) : (darkCleared s).count .parkDiscarded = raisedBy (s.count .parkDiscarded)
    (s.table.entries.map (fun x => x.2.chain.length)).sum Config.counterMax := by
  have hok' := (unmarkAll_held s).table hok
  have hbefore : s.unmarkAll.count .parkDiscarded = s.count .parkDiscarded := by simp only [State.count, unmarkAll_counters]
  have hsum : (s.unmarkAll.handles.map (chainLength s.unmarkAll)).sum =
      (s.table.entries.map (fun x => x.2.chain.length)).sum := by
    rw [held_handles (unmarkAll_held s) hok, ← chainLength_sum hok]
    exact congrArg List.sum (List.map_congr_left fun h _ => unmarkAll_chainLength hok h)
  rw [← hbefore, ← hsum]
  exact foldl_discardChain_discarded (handles_nodup hok') s.unmarkAll

/-! ## The second failure (R162) -/

/-- R162: the part dark and the cutover aborted. -/
def darkAborted (s : State) : State := ((darkCleared s).dropTarget.goDark 2).raiseAbort s.role.phase

theorem secondDark_eq (s : State) : s.secondDark = (darkAborted s).preemptTest := rfl

/-- R162: each LIVE entry is unmarked and without a chain, its chain age as it was. -/
def GivenUp (s t : State) : Prop :=
  ∀ h e l, s.entry? h = some e → e.live? = some l → ∃ l', (t.entry? h).bind Entry.live? = some l' ∧
    l'.marked = false ∧ l'.chain = [] ∧ l'.chainAge = l.chainAge

/-- R162: what a second failure leaves, to the end of its event. -/
structure SecondDark (s t : State) : Prop where
  active : t.role.active = s.role.active
  epoch : t.role.epoch = s.role.epoch
  phase : t.role.phase = .none
  dark : t.role.dark = true
  late : t.role.lateWindow = .stopped
  limit : t.role.cutLimit = .stopped
  holdDown : t.role.holdDown = s.role.holdDown
  target : t.mirror.target = none
  queue : t.park.releaseQueue = []
  lives : GivenUp s t
  discarded : t.count .parkDiscarded = raisedBy (s.count .parkDiscarded)
    (s.table.entries.map (fun x => x.2.chain.length)).sum Config.counterMax
  darkFlag : (t.event .dark).flag = true
  flag : (t.event .cutoverAbort).flag = true
  count : t.count .cutoverAborts = min (s.count .cutoverAborts + 1) Config.counterMax

theorem secondDark_lasting (s : State) : Lasting (SecondDark s) where
  passes := fun k h => by
    have hrole := k.role
    exact {
      active := by rw [hrole]; exact h.active
      epoch := by rw [hrole]; exact h.epoch
      phase := by rw [hrole]; exact h.phase
      dark := by rw [hrole]; exact h.dark
      late := by rw [hrole]; exact h.late
      limit := by rw [hrole]; exact h.limit
      holdDown := by rw [hrole]; exact h.holdDown
      target := k.target.trans h.target
      queue := by rw [k.park]; exact h.queue
      lives := fun g e l he hl => by rw [k.entry g]; exact h.lives g e l he hl
      discarded := (k.counts _ (by decide)).trans h.discarded
      darkFlag := by rw [k.events .dark nofun]; exact h.darkFlag
      flag := by rw [k.events .cutoverAbort nofun]; exact h.flag
      count := (k.counts _ (by decide)).trans h.count }
  settles := fun {x} hd _ h => by
    have hnone : x.settleDone = false := settleDone_of_phase (by rw [h.phase]; nofun)
    rw [hnone] at hd
    cases hd

/-- R162: the target dropped leaves the LIVE entries given up. -/
theorem dropTarget_givenUp (hok : s.tableOk) : GivenUp s (darkCleared s).dropTarget := by
  intro h e l he hl
  obtain ⟨d, m, hb⟩ : ∃ d m, e.body = .live d m l := by
    cases hb : e.body <;> simp_all [Entry.live?]
  have hcleared : (darkCleared s).entry? h = some (e.withLive d m (givenUp l)) := by
    rw [darkCleared_entry hok, he, Option.map_some, mapLive_of_live hb]
    rfl
  rcases dropTarget_cases (darkCleared s) with ⟨k, -⟩ | k <;> rw [k]
  · exact ⟨givenUp l, by rw [hcleared]; rfl, rfl, rfl, rfl⟩
  · obtain ⟨n, hn⟩ := targetLoss_live ((darkCleared_held s).table hok) hcleared rfl
    exact ⟨{ givenUp l with unprotected := false, waits := n }, by rw [hn]; rfl, rfl, rfl, rfl⟩

theorem darkAborted_secondDark (hok : s.tableOk) : SecondDark s (darkAborted s) := by
  have hok' : (darkCleared s).tableOk := (darkCleared_held s).table hok
  have kabort := raiseAbort_sends ((darkCleared s).dropTarget.goDark 2) s.role.phase
  have kdark := goDark_sends (darkCleared s).dropTarget 2
  have hrole : (darkAborted s).role = { (darkCleared s).role with dark := true } := by
    rw [darkAborted, kabort.role, kdark.role, dropTarget_role hok' (darkCleared_isMarked hok)]
  have hrest := darkCleared_role s
  have hentry : ∀ g, (darkAborted s).entry? g = (darkCleared s).dropTarget.entry? g := fun g =>
    (entry?_of_table (congrArg Table.entries kabort.table) g).trans (entry?_of_table (congrArg Table.entries kdark.table) g)
  have hpark : (darkAborted s).park = (darkCleared s).dropTarget.park := kabort.park.trans kdark.park
  exact {
    active := by rw [hrole, hrest]
    epoch := by rw [hrole, hrest]
    phase := by rw [hrole, hrest]
    dark := by rw [hrole]
    late := by rw [hrole, hrest]
    limit := by rw [hrole, hrest]
    holdDown := by rw [hrole, hrest]
    target := by rw [darkAborted, kabort.mirror, kdark.mirror]; exact dropTarget_target _
    queue := by rw [hpark]; exact dropTarget_queue_nil rfl
    lives := fun g e l he hl => by rw [hentry]; exact dropTarget_givenUp hok g e l he hl
    discarded := by
      rw [darkAborted, raiseAbort_count_other _ _ (by decide) (by decide), ← darkCleared_discarded hok,
        ← dropTarget_discarded hok']
      exact raise_count _ _ _ (by decide)
    darkFlag := (raiseAbort_held _ _).flags _ (goDark_flag _ 2)
    flag := raiseAbort_flag _ _
    count := by
      have hdark : ((darkCleared s).dropTarget.goDark 2).count .cutoverAborts = (darkCleared s).dropTarget.count .cutoverAborts :=
        raise_count _ _ _ (by decide)
      have hcleared : (darkCleared s).count .cutoverAborts = s.count .cutoverAborts := by
        refine (discardAll_count s.unmarkAll (by decide) (by decide)).trans ?_
        simp only [State.count, unmarkAll_counters]
      rw [darkAborted, raiseAbort_count, hdark, (dropTarget_frees _).counts _ (by decide) (by decide) (by decide), hcleared] }

/-- R162: the second failure to the end of its event. -/
theorem secondDark_ended (hs : s.standby = none) (hok : s.tableOk) (ph : CutPhase) (a b : RoleName) :
    SecondDark s (changeEnded s.secondDark ph a b) := by
  have hdark : (darkAborted s).standby = none := by
    refine (standby_congr (darkAborted_secondDark hok).active ?_).trans hs
    exact (raiseAbort_sends _ _).health.trans ((goDark_sends _ _).health.trans
      ((dropTarget_still _).health.trans (darkCleared_held s).health))
  rw [secondDark_eq, preemptTest_of_no_standby hdark]
  exact (secondDark_lasting s).changeEnded hdark (darkAborted_secondDark hok) ph a b

/-! ## The loss of a link of the active firewall (R139, R143, R152, R153, R161, R162) -/

theorem linkDown_outcome {p : Port} (hf : p.fw? = some s.role.active) (hup : (s.port p).link = .up)
    (hd : (s.fw s.role.active).state.isDown = false) {Q : State → Prop}
    (h : ∀ ph a b, Q (changeEnded ((lossReported s p).activeChanged (.down .link)) ph a b)) :
    ∃ t, exec (.linkDown p) s = .next t ∧ Q t := by
  obtain ⟨ph, a, b, he⟩ := linkDown_of_active hf hup hd
  exact ⟨_, he, h ph a b⟩

section
variable {v : State}

theorem Reports.transferredTo (k : Reports s v) (h : v.transferredTo t v.role.active.other) :
    s.transferredTo t s.role.active.other := by
  rw [k.role] at h
  exact transferredTo_of_same h k.table k.decl k.params (by rw [k.role])

theorem Reports.movedTo (k : Reports s v) (h : v.movedTo t v.role.active.other) : s.movedTo t s.role.active.other := by
  simpa only [State.movedTo, k.role, k.decl] using h

theorem Reports.unusable (k : Reports s v) : v.usable v.role.active = false := by
  rw [k.role]
  exact k.lost

theorem Reports.usable_other (k : Reports s v) : v.usable v.role.active.other = s.usable s.role.active.other := by
  rw [k.role]
  exact k.other

theorem Reports.standby (k : Reports s v) (hu : s.usable s.role.active.other = false) : v.standby = none :=
  standby_of_unusable (k.usable_other.trans hu)

theorem Reports.entry (k : Reports s v) (g : Nat) : v.entry? g = s.entry? g := entry?_of_table (congrArg Table.entries k.table) g

theorem Reports.tableOk (k : Reports s v) (hok : s.tableOk) : v.tableOk := by
  unfold State.tableOk
  rw [k.table]
  exact hok

end

/-- Settles O41: by the phase, each outcome by what its operation leaves to the end of its event. -/
theorem lossOfTheActiveFirewall : Obligations.LossOfTheActiveFirewall := by
  refine ⟨fun p s hf hup hd hp _ => ?_, fun p s hf hup hd hok => ?_⟩ <;> have k := lossReported_reports s p
  · have hchange := activeChanged_of_none (s := lossReported s p) .link (by rw [k.role]; exact hp)
    rw [k.usable_other] at hchange
    refine ⟨fun hu => ?_, fun hu hm => ?_⟩
    · refine linkDown_outcome hf hup hd fun ph a b => ?_
      rw [hchange, if_pos hu]
      obtain ⟨hmove, hway, hcounted⟩ := unplanned_ended k.unusable .failure ph a b
      have hcutover := hway.cutover
      have hlate := hway.late
      simp only [cutoverOf, started_role, k.role, Prod.mk.injEq] at hcutover
      simp only [LateBy, started_role, k.role] at hlate
      obtain ⟨hkind, hreason, hsource, hdest⟩ := hcutover
      rw [k.counts _ (by decide)] at hcounted
      exact ⟨k.transferredTo hmove, hkind, hreason, hsource, hdest, hlate,
        by rw [hway.start]; exact started_flag _ _, hcounted⟩
    · refine linkDown_outcome hf hup hd fun ph a b => ?_
      rw [hchange, if_neg (by simp [hu])]
      obtain ⟨hrole, hflag, htable, hmirror, hdecl⟩ := goDark_ended (k.standby hu) (by rw [k.role]; exact hp)
        (by rw [k.mirror]; exact hm) 1 ph a b
      exact ⟨by rw [hrole, k.role], hflag, htable.trans k.table, hmirror.trans k.mirror, hdecl.trans k.decl⟩
  · refine ⟨fun hp => ?_, fun hp hu => ?_, fun hp hu => ?_⟩
    · refine linkDown_outcome hf hup hd fun ph a b => ?_
      rw [activeChanged_of_quiesce .link (by rw [k.role]; exact hp)]
      obtain ⟨hmove, hway, hcounted⟩ := loseSource_ended k.unusable ph a b
      have hcutover := hway.cutover
      simp only [cutoverOf, sourceLost, k.role, Prod.mk.injEq] at hcutover
      obtain ⟨hkind, hreason, -, -⟩ := hcutover
      rw [k.counts _ (by decide)] at hcounted
      exact ⟨k.transferredTo hmove, hkind, hreason, hway.quiesce, hway.phase, hway.start.trans k.start, hcounted⟩
    · refine linkDown_outcome hf hup hd fun ph a b => ?_
      rw [activeChanged_of_moved .link (by rw [k.role]; exact hp), if_pos (k.usable_other.trans hu)]
      have h := cutBack_ended k.unusable (k.tableOk hok) ph a b
      have hcutover := h.cutover
      have hlimit := h.limit
      simp only [cutoverOf, k.role, Prod.mk.injEq] at hcutover
      rw [k.role] at hlimit
      obtain ⟨-, -, hsource, hdest⟩ := hcutover
      exact ⟨k.movedTo h.moved, by rw [h.holdDown, State.param, k.params]; rfl, h.late, h.phase, hsource, hdest, hlimit,
        h.target, h.marks, fun g e he hm hc => h.queue g ⟨e, (k.entry g).trans he, hm, hc⟩, h.flag,
        by rw [h.count, k.counts _ (by decide)]⟩
    · refine linkDown_outcome hf hup hd fun ph a b => ?_
      rw [activeChanged_of_moved .link (by rw [k.role]; exact hp), if_neg (by simp [k.usable_other, hu])]
      have h := secondDark_ended (k.standby hu) (k.tableOk hok) ph a b
      have hdiscarded := h.discarded
      rw [k.table, k.counts _ (by decide)] at hdiscarded
      exact ⟨by rw [h.active, k.role], by rw [h.epoch, k.role], h.phase, h.dark, h.late, h.limit, by rw [h.holdDown, k.role],
        h.target, h.queue, fun g e l he hl => h.lives g e l ((k.entry g).trans he) hl, hdiscarded, h.darkFlag, h.flag,
        by rw [h.count, k.counts _ (by decide)]⟩

end Sys2Proof.Roles

/-! A frame that parks (R167 to R170, R181): the NOTICE frames that a comparison with the park levels hands over, the cells taken
and the chain joined, and the statement. -/

namespace Sys2Proof.ParkBuffer

open Sys2Proof Sys2Proof.Machine Sys2Proof.Laws Sys2Proof.SessionTable

variable {s t u : State}

/-! ## Queues that gain NOTICE frames alone (R211) -/

/-- From `s` to `t` every transmit queue has at most gained NOTICE frames at its tail. -/
def Notifies (s t : State) : Prop :=
  ∀ p, ∃ ns, (t.port p).tx = (s.port p).tx ++ ns ∧ ∀ g ∈ ns, isCcfOf .notice g = true

theorem notifies_of_ports (h : t.ports = s.ports) : Notifies s t := fun p =>
  ⟨[], by rw [State.port, h, List.append_nil, State.port], nofun⟩

theorem Notifies.refl (s : State) : Notifies s s := notifies_of_ports rfl

theorem Notifies.trans (h : Notifies s t) (k : Notifies t u) : Notifies s u := fun p => by
  obtain ⟨ns, hns, hall⟩ := h p
  obtain ⟨ms, hms, kall⟩ := k p
  exact ⟨ns ++ ms, by rw [hms, hns, List.append_assoc], List.forall_mem_append.mpr ⟨hall, kall⟩⟩

/-- R192: what a NOTICE carries leaves room in the longest frame for 1,494 bytes of parameters. -/
theorem isNotice_noticeFrame (s : State) (p : Port) (ev : EventId) {bs : List Byte} (hb : bs.length ≤ 1494) :
    isCcfOf .notice (s.noticeFrame p ev bs) = true := by
  refine (FramePath.builtCcfReadsBack _ _ _ _ _ _ _ ?_).1
  simp only [List.length_append, be1, List.length_singleton]
  omega

theorem handTx_notifies (s : State) (p : Port) {f : Frame} (hf : isCcfOf .notice f = true) : Notifies s (s.handTx p f) := by
  rcases handTx_cases s p f with ⟨-, e⟩ | ⟨-, e⟩ <;> rw [e]
  · intro q
    rw [State.queued, port_setPort]
    split
    · subst_vars
      exact ⟨[f], rfl, by simpa using hf⟩
    · exact Notifies.refl s q
  · exact notifies_of_ports rfl

theorem sendNotices_notifies (s : State) (ps : List Port) (ev : EventId) {bs : List Byte} (hb : bs.length ≤ 1494) :
    Notifies s (s.sendNotices ps ev bs) := by
  unfold State.sendNotices
  induction ps generalizing s with
  | nil => exact .refl s
  | cons p ps ih => exact (handTx_notifies s p (isNotice_noticeFrame s p ev hb)).trans (ih _)

theorem raise_notifies (s : State) (ev : EventId) {bs : List Byte} (hb : bs.length ≤ 1494) : Notifies s (s.raise ev bs) :=
  sendNotices_notifies (s.latch ev) _ ev hb

theorem compareParkLevel_notifies (s : State) (n : Fin 3) : Notifies s (s.compareParkLevel n) := by
  rw [compareParkLevel_eq]
  split
  · refine raise_notifies { s with park := _ } _ ?_
    simp [be1, be2, length_beBytes]
  · exact .refl s

theorem comparePark_notifies (s : State) : Notifies s s.comparePark :=
  ((compareParkLevel_notifies s 0).trans (compareParkLevel_notifies _ 1)).trans (compareParkLevel_notifies _ 2)

/-- R181: each level flag set that was, or whose level the cells in use have reached. -/
theorem comparePark_level (s : State) (n : Fin 3) :
    s.comparePark.park.levels.get n = (s.park.levels.get n || s.parkReached n) := by
  refine (compareParkLevel_compares.three_level s n).trans ?_
  simp only [parkNew]
  cases s.park.levels.get n <;> rfl

/-- R181: a comparison is nothing where no level is newly reached. -/
theorem comparePark_of_unreached (h : ∀ n, s.park.levels.get n = true ∨ s.parkReached n = false) : s.comparePark = s :=
  compareParkLevel_compares.three_skip fun n => by
    rcases h n with h | h <;> simp [parkNew, h]

/-! ## Cells taken (R169) -/

/-- R169: the cells taken and the frame counted among those held, before the comparison with the levels. -/
def occupied (s : State) (n : Nat) : State :=
  { s with park := { s.park with cellsInUse := s.park.cellsInUse + n, framesHeld := s.park.framesHeld + 1 } }

theorem takeCells_eq (s : State) (n : Nat) : s.takeCells n = (occupied s n).comparePark := rfl

theorem takeCells_park (s : State) (n : Nat) : (s.takeCells n).park.cellsInUse = s.park.cellsInUse + n ∧
    (s.takeCells n).park.framesHeld = s.park.framesHeld + 1 := by
  rw [takeCells_eq, comparePark_park]
  exact ⟨rfl, rfl⟩

theorem takeCells_live (s : State) (n h : Nat) : liveAt (s.takeCells n) h = liveAt s h :=
  congrArg (Option.bind · Entry.live?) (comparePark_entry? (occupied s n) h)

theorem takeCells_others (s : State) (n h : Nat) : s.othersKept (s.takeCells n) h := fun g _ =>
  comparePark_entry? (occupied s n) g

/-! ## A frame that joins a chain (R169, R170) -/

theorem toUrgentHead_passes (s : State) (h : Nat) : Passes s (s.toUrgentHead h) h := by
  refine ⟨?_, toUrgentHead_others s h, (toUrgentHead_lanes s h).park, (toUrgentHead_lanes s h).role⟩
  unfold State.toUrgentHead
  split
  · unfold liveAt
    rw [lanePlace_self]
    cases s.entry? h with
    | none => rfl
    | some e => exact live?_mapMirror e _
  · rfl

/-- R167, R169: the frame as a chain holds it. -/
def parkedOf (p : Port) (f : Frame) : Parked := { port := p, cls := .track, bytes := f, cells := cellsOf f }

/-- R138, R169: the frame at the tail of the chain, counted and tallied, its cells not yet taken. -/
def chained (s : State) (h : Nat) (x : Parked) : State :=
  ((s.modifyEntry h (·.mapLive (·.append x))).inc .parked).tallyParked

theorem tallyParked_eq (s : State) : s.tallyParked = { s with role := s.tallyParked.role } := by
  unfold State.tallyParked
  split <;> rfl

theorem chained_live (s : State) (h : Nat) (x : Parked) :
    liveAt (chained s h x) h = (liveAt s h).map (·.append x) := by
  unfold chained
  rw [tallyParked_eq]
  exact liveAt_modifyEntry s h _

theorem chained_others (s : State) (h : Nat) (x : Parked) : s.othersKept (chained s h x) h := by
  unfold chained
  rw [tallyParked_eq]
  exact modifyEntry_others s h _

theorem chained_park (s : State) (h : Nat) (x : Parked) : (chained s h x).park = s.park := by
  unfold chained
  rw [tallyParked_eq]
  exact modifyEntry_park s h _

theorem chained_ports (s : State) (h : Nat) (x : Parked) : (chained s h x).ports = s.ports := by
  unfold chained
  rw [tallyParked_eq]
  exact (modifyEntry_lanes s h _).ports

theorem chained_params (s : State) (h : Nat) (x : Parked) : (chained s h x).params = s.params := by
  unfold chained
  rw [tallyParked_eq]
  exact (modifyEntry_lanes s h _).works.params

theorem chained_parked (s : State) (h : Nat) (x : Parked) :
    (chained s h x).count .parked = min (s.count .parked + 1) Config.counterMax := by
  unfold chained
  rw [tallyParked_eq]
  refine (count_inc _ _ _).trans ?_
  rw [if_pos rfl, (modifyEntry_lanes s h _).count]

theorem occupied_parkReached (s : State) (h : Nat) (x : Parked) (k : Nat) (n : Fin 3) :
    (occupied (chained s h x) k).parkReached n =
      decide (s.param (.parkLevel n) * Config.cells ≤ (s.park.cellsInUse + k) * 100) := by
  rw [← chained_park s h x, State.param, ← chained_params s h x]
  rfl

/-- R169, R170: what a frame parked leaves: the promotion to the head of URGENT moves nothing but the lanes and the Mirror
Engine's fields of its entry. -/
structure Parks (s t : State) (h : Nat) (x : Parked) : Prop where
  live : liveAt t h = (liveAt s h).map (·.append x)
  others : s.othersKept t h
  cells : t.park.cellsInUse = s.park.cellsInUse + x.cells
  held : t.park.framesHeld = s.park.framesHeld + 1
  count : t.count .parked = min (s.count .parked + 1) Config.counterMax
  level : ∀ n, t.park.levels.get n = (s.park.levels.get n ||
    decide (s.param (.parkLevel n) * Config.cells ≤ (s.park.cellsInUse + x.cells) * 100))
  off : ∀ q, q ≠ .aIn ∧ q ≠ .bIn ∧ q ≠ .lan → t.port q = s.port q
  notices : Notifies s t
  silent : (∀ n, s.park.levels.get n = true ∨ (s.park.cellsInUse + x.cells) * 100 < s.param (.parkLevel n) * Config.cells) →
    t.ports = s.ports

theorem Parks.promoted {h : Nat} {x : Parked} (k : Parks s t h x) : Parks s (t.toUrgentHead h) h x := by
  have kl := toUrgentHead_lanes t h
  have kp := toUrgentHead_passes t h
  refine ⟨kp.live.trans k.live, othersKept_trans k.others kp.others, ?_, ?_, (kl.count _).trans k.count, fun n => ?_,
    fun q hq => (kl.port q).trans (k.off q hq), k.notices.trans (notifies_of_ports kl.ports),
    fun hn => kl.ports.trans (k.silent hn)⟩ <;> rw [kl.park]
  exacts [k.cells, k.held, k.level n]

/-- R169, R181: the frame at the tail of its chain, with its cells taken. -/
theorem takeCells_parks (s : State) (h : Nat) (x : Parked) : Parks s ((chained s h x).takeCells x.cells) h x := by
  obtain ⟨hcells, hheld⟩ := takeCells_park (chained s h x) x.cells
  have hports := chained_ports s h x
  refine ⟨(takeCells_live _ _ h).trans (chained_live s h x), othersKept_trans (chained_others s h x) (takeCells_others _ _ h),
    by rw [hcells, chained_park], by rw [hheld, chained_park], ?_, fun n => ?_, fun q hq => ?_, ?_, fun hn => ?_⟩
  · exact (comparePark_count (occupied _ _) (by decide)).trans (chained_parked s h x)
  · rw [takeCells_eq, comparePark_level, occupied_parkReached, occupied, chained_park]
  · exact (comparePark_port (occupied _ _) hq).trans (by rw [State.port, State.port, occupied, hports])
  · exact (notifies_of_ports hports).trans (comparePark_notifies (occupied _ _))
  · refine (congrArg State.ports (comparePark_of_unreached (s := occupied _ _) fun n => ?_)).trans hports
    rw [occupied_parkReached, decide_eq_false_iff_not, Nat.not_le, occupied, chained_park]
    exact hn n

/-- R169: cells for the frame, and room in its chain. -/
theorem parkRoom_iff {e : Entry} {f : Frame} : s.parkRoom e f = true ↔
    cellsOf f ≤ Config.cells - s.park.cellsInUse ∧ e.chain.length < s.param .parkLimit := by
  simp [State.parkRoom]

theorem parkFrame_parks {e : Entry} {f : Frame} (h : Nat) (p : Port) (hr : s.parkRoom e f = true) :
    Parks s (s.parkFrame h e p f) h (parkedOf p f) := by
  have k := takeCells_parks s h (parkedOf p f)
  unfold State.parkFrame
  rw [if_pos hr]
  show Parks s (if _ then State.toUrgentHead _ h else _) h _
  split
  · exact k.promoted
  · exact k

theorem parkFrame_of_no_room {e : Entry} {f : Frame} (h : Nat) (p : Port) (hr : s.parkRoom e f = false) :
    s.parkFrame h e p f = (s.inc .parkDrop).tallyDropped := by
  simp [State.parkFrame, hr]

/-- R138: a frame dropped is tallied in TRANSFER and SETTLE. -/
theorem tallyDropped_eq (s : State) : s.tallyDropped = { s with role := { s.role with record := { s.role.record with
    dropped := if s.role.phase = .transfer ∨ s.role.phase = .settle then min (s.role.record.dropped + 1) 4294967295
      else s.role.record.dropped } } } := by
  have hin : s.inCutover = true ↔ s.role.phase = .transfer ∨ s.role.phase = .settle := by simp [State.inCutover]
  unfold State.tallyDropped
  simp only [← hin]
  split <;> rfl

/-! ## The frame at its port (R83, R168) -/

/-- R168: a frame from LAN or WAN of a marked entry, or of one with a chain, goes to the park decision. -/
theorem exec_parkingFrame {p : Port} {f : Frame} {v : SessionView} {h : Nat} {e : Entry} (hd : isDataFrame f = true)
    (hp : p = .lan ∨ p = .wan) (hr : readFrame f = .session v) (hc : s.classify (.session v) = .track)
    (hl : s.lookup (frameKey p v) = some h) (he : s.entry? h = some e) (hk : e.parks = true) :
    exec (.dataFrame p f) s = .next ((s.inc (.framesIn p)).parkFrame h e p f) := by
  have hmay : mayPark p = true := by rcases hp with rfl | rfl <;> rfl
  have hemit : s.mayEmit p := by rcases hp with rfl | rfl <;> exact nofun
  rw [exec_trackedFrame hd hemit hr hc]
  refine congrArg Host.Outcome.next ?_
  rw [State.trackedFrame, show (s.inc (.framesIn p)).lookup (frameKey p v) = some h from hl]
  simp [he, hmay, hk]

/-- Settles O17: the frame goes to the park decision, which has an outcome with room and one without. -/
theorem frameOfAMarkedEntryParks : Obligations.FrameOfAMarkedEntryParks := by
  intro p f s v h e d m l hd hp hr hc hl he hb hk cells
  have hchain : e.chain = l.chain := by simp [Entry.chain, Entry.live?, hb]
  have hparks : e.parks = true := by simpa [Entry.parks, Entry.marked, Entry.live?, hb, hchain] using hk
  have hexec := exec_parkingFrame hd hp hr hc hl he hparks
  have hcount : ∀ c : Counter, (∀ q, c ≠ .framesIn q) → (s.inc (.framesIn p)).count c = s.count c := fun c hne => by
    rw [count_inc, if_neg (hne p)]
  refine ⟨fun hcells hroom => ?_, fun hfull => ?_⟩
  · have k := parkFrame_parks (s := s.inc (.framesIn p)) h p (parkRoom_iff.mpr ⟨hcells, hchain ▸ hroom⟩)
    have hlive : liveAt (s.inc (.framesIn p)) h = some l := Roles.liveAt_of_some (s := s) he (by simp [Entry.live?, hb])
    refine ⟨_, l.append (parkedOf p f), hexec, k.live.trans (by rw [hlive]; rfl), k.others, rfl, ?_, rfl, k.cells,
      k.held, ?_, k.level, fun x h1 h2 h3 => k.off x ⟨h1, h2, h3⟩, k.notices, k.silent⟩
    · simp [LivePart.append]
    · rw [k.count, hcount .parked nofun]
  · have hno : (s.inc (.framesIn p)).parkRoom e f = false := by
      rw [Bool.eq_false_iff, ne_eq, parkRoom_iff, hchain]
      rintro ⟨h1, h2⟩
      exact hfull.elim (Nat.not_lt.mpr h1) (Nat.not_le.mpr h2)
    rw [hexec, parkFrame_of_no_room h p hno, tallyDropped_eq]
    refine ⟨_, rfl, rfl, ?_, rfl⟩
    refine (count_inc _ _ _).trans ?_
    rw [if_pos rfl, hcount .parkDrop nofun]

end Sys2Proof.ParkBuffer

/-! The parameters over one step (R198 to R200): SET_PARAM stores values in their ranges, RESET the defaults, and every other
command leaves them. -/

namespace Sys2Proof.Management

open Sys2Proof Sys2Proof.Machine Sys2Proof.Laws Sys2Proof.SessionTable

variable {s t u : State}

/-! ## Events and timers (R110, R139) -/

theorem asEvent_params {body : State → State} (h : (body s).params = s.params) : (s.asEvent body).params = s.params :=
  (sendRoleChanges_held _ _ _ _).params.trans h

theorem restartExpiry_params (s : State) : s.restartExpiry.params = s.params := by
  unfold State.restartExpiry
  split <;> rfl

theorem startupExpiry_params (s : State) : s.startupExpiry.params = s.params := by
  unfold State.startupExpiry
  split
  · exact asEvent_params (startupTest_moved _).params
  · rfl

theorem holdDownEnds_params (s : State) : s.holdDownEnds.params = s.params := by
  unfold State.holdDownEnds
  split
  · exact asEvent_params (preemptTest_held _).params
  · rfl

theorem dwellEnds_params (s : State) : s.dwellEnds.params = s.params := by
  unfold State.dwellEnds
  split
  · exact asEvent_params (preemptTest_held _).params
  · rfl
  · rfl

theorem quiesceEnds_params (s : State) : s.quiesceEnds.params = s.params := by
  unfold State.quiesceEnds
  split
  · refine asEvent_params ?_
    dsimp only
    split
    · exact (makeTransfer_moved _).params
    · rfl
  · rfl

theorem lateEnds_params (s : State) : s.lateEnds.params = s.params := by
  unfold State.lateEnds
  split <;> rfl

theorem limitEnds_params (s : State) : s.limitEnds.params = s.params := by
  unfold State.limitEnds
  split
  · exact asEvent_params ((releaseAll_held _).toStill.trans (finish_still _)).params
  · rfl

/-! ## Health and links -/

theorem pulseExpiry_params (s : State) (f : Fw) : (s.pulseExpiry f).params = s.params := by
  unfold State.pulseExpiry
  split
  · exact (handIfChanged_moved _ s f).params.trans (raiseHealth_held (s.setFw f _) f _ _).params
  · rfl

theorem linkRise_params (s : State) (p : Port) : (s.linkRise p).params = s.params := by
  unfold State.linkRise
  split
  · rfl
  · exact (raise_held _ _ _).params

theorem linkFall_params (s : State) (p : Port) : (s.linkFall p).params = s.params := by
  have hport : ((s.dropLink p).raisePortLink p .down).params = s.params := (raise_held _ _ _).params
  unfold State.linkFall
  split
  · rfl
  · dsimp only
    split
    · exact (FramePath.linkLoss_kept _ _).params.trans ((raise_held _ _ _).params.trans hport)
    · exact hport

theorem transmit_params (s : State) (p : Port) : (s.transmit p).params = s.params := by
  unfold State.transmit
  split <;> rfl

/-! ## Frames that arrive -/

theorem bySender_params (p : Port) {act : Fw → State} (h : ∀ f, (act f).params = s.params) :
    (s.bySender p act).params = s.params := by
  unfold State.bySender
  split
  · exact h _
  · rfl

theorem queueRequest_params (s : State) (q : Request) : (s.queueRequest q).params = s.params := by
  unfold State.queueRequest
  split <;> rfl

theorem toOwner_params (s : State) (p : Port) (k : CcfKind) (c : Ccf) : (s.toOwner p k c).params = s.params := by
  cases k
  case pulse => exact bySender_params p (fun f => (MirrorChannel.pulseFrom_kept s f c).params)
  case declare => exact bySender_params p (fun f => (declareFrom_moved s f c).params)
  case flushed => exact bySender_params p (fun f => (flushedFrom_moved s f c).params)
  case syncAck => exact asEvent_params ((syncAck_still s _ _).trans (finish_still _)).params
  case query => exact queueRequest_params s _
  all_goals rfl

theorem ccfFrameIn_params (s : State) (p : Port) (f : Frame) : (s.ccfFrameIn p f).params = s.params := by
  unfold State.ccfFrameIn State.takeCcf
  split
  · split
    · rfl
    · split
      · exact toOwner_params s p _ _
      · rfl
  · rfl

theorem receive_params (s : State) (p : Port) (f : Frame) : (s.receive p f).params = s.params := by
  unfold State.receive
  split
  · dsimp only
    split
    · exact ccfFrameIn_params _ p f
    · exact (dataFrame_still _ p f).params
  · rfl

/-! ## Requests -/

/-- R195, R196: a request that is served is judged, off its queue, and its REPLY sent; otherwise the state stays. -/
theorem serve_cases (s : State) (mine : Byte → Bool) (judge : State → Request → Answer) :
    s.serve mine judge = s ∨ ∃ q rest, s.serve mine judge = (judge { s with requests := rest } q).send q := by
  unfold State.serve State.headFor
  cases s.requests with
  | nil => exact .inl rfl
  | cons q rest =>
    by_cases hm : (mine q.code && s.canServe q.port) = true
    · exact .inr ⟨q, rest, by simp only [hm, if_true]⟩
    · exact .inl (by simp only [hm]; rfl)

/-- R196: a read either is refused or comes to what its rule says. -/
theorem judgeRead_cases (v : State) (q : Request) (n : Nat) (body : State → List Byte → Answer) :
    (v.judgeRead q n body).state = v ∨ v.judgeRead q n body = body v q.args := by
  unfold State.judgeRead
  split
  · exact .inl rfl
  · split
    · exact .inl rfl
    · exact .inr rfl

/-- R196: a write either is refused or comes to what its rule says. -/
theorem judgeWrite_cases (v : State) (q : Request) (n : Nat) (body : State → List Byte → Answer) :
    (v.judgeWrite q n body).state = v ∨ v.judgeWrite q n body = body v q.args := by
  unfold State.judgeWrite
  split
  · exact .inl rfl
  · split
    · exact .inl rfl
    · exact .inr rfl

theorem serve_params (s : State) (mine : Byte → Bool) {judge : State → Request → Answer}
    (h : ∀ v q, (judge v q).state.params = v.params) : (s.serve mine judge).params = s.params := by
  rcases serve_cases s mine judge with e | ⟨q, rest, e⟩
  · rw [e]
  · rw [e]
    exact (send_sends _ q).params.trans (h _ q)

theorem serve_read_params (s : State) (mine : Byte → Bool) (n : Nat) {body : State → List Byte → Answer}
    (h : ∀ v args, (body v args).state.params = v.params) :
    (s.serve mine (fun v q => v.judgeRead q n body)).params = s.params :=
  serve_params s mine (fun v q => by
    rcases judgeRead_cases v q n body with e | e
    · rw [e]
    · rw [e]; exact h v q.args)

theorem serve_write_params (s : State) (mine : Byte → Bool) (n : Nat) {body : State → List Byte → Answer}
    (h : ∀ v args, (body v args).state.params = v.params) :
    (s.serve mine (fun v q => v.judgeWrite q n body)).params = s.params :=
  serve_params s mine (fun v q => by
    rcases judgeWrite_cases v q n body with e | e
    · rw [e]
    · rw [e]; exact h v q.args)

/-! ### Reads -/

theorem getParamOf_state (v : State) (args : List Byte) : (v.getParamOf args).state = v := by
  unfold State.getParamOf
  split <;> rfl

theorem getEntryOf_params (v : State) (args : List Byte) : (v.getEntryOf args).state.params = v.params := by
  unfold State.getEntryOf
  split <;> rfl

theorem findEntryOf_params (v : State) (args : List Byte) : (v.findEntryOf args).state.params = v.params := by
  unfold State.findEntryOf
  split
  · rfl
  · split <;> rfl

theorem listOf_state (v : State) (args : List Byte) : (v.listOf args).state = v := by
  unfold State.listOf
  dsimp only
  split <;> rfl

theorem countersOf_params (v : State) (args : List Byte) : (v.countersOf args).state.params = v.params := by
  unfold State.countersOf
  dsimp only
  split <;> rfl

theorem getPrefixOf_state (v : State) (args : List Byte) : (v.getPrefixOf args).state = v := by
  unfold State.getPrefixOf
  split <;> rfl

theorem judgeCounters_params (v : State) (q : Request) : (v.judgeCounters q).state.params = v.params := by
  unfold State.judgeCounters
  split
  · rcases judgeWrite_cases v q 1 State.countersOf with e | e
    · rw [e]
    · rw [e]; exact countersOf_params v q.args
  · rcases judgeRead_cases v q 1 State.countersOf with e | e
    · rw [e]
    · rw [e]; exact countersOf_params v q.args

/-! ### Writes -/

theorem setPrefixOf_params (v : State) (args : List Byte) : (v.setPrefixOf args).state.params = v.params := by
  unfold State.setPrefixOf
  split
  · rfl
  · split
    · split <;> rfl
    · rfl

theorem resyncOf_params (v : State) : v.resyncOf.state.params = v.params := by
  unfold State.resyncOf
  split
  · rfl
  · split
    · rfl
    · exact (walkStart_still v _).params

theorem purgeOf_params (v : State) (args : List Byte) : (v.purgeOf args).state.params = v.params := by
  unfold State.purgeOf
  dsimp only
  split
  · exact (purgeEntry_still v _).params
  · rfl

theorem tableReset_params (v : State) : v.tableReset.params = v.params := by
  cases ht : v.mirror.target with
  | none => rw [tableReset_of_none ht]; rfl
  | some f => rw [tableReset_of_target ht]; exact (walkStart_still _ f).params

theorem tableResetOf_params (v : State) : v.tableResetOf.state.params = v.params := by
  unfold State.tableResetOf
  split
  · rfl
  · exact tableReset_params v

/-! ## Values stored (R199, R200) -/

/-- R198: the ends of a numeric range in their order. -/
def rangeOrdered : ParamKind → Bool
  | .numeric lo hi => decide (lo ≤ hi)
  | _ => true

theorem paramKind_ordered : ∀ i, rangeOrdered (paramKind i) = true := by decide

theorem paramBytes_of_address : ∀ i, paramKind i = .address → paramBytes i = 6 := by decide

theorem clamp_mem {lo hi : Nat} (h : lo ≤ hi) (v : Nat) : lo ≤ clamp lo hi v ∧ clamp lo hi v ≤ hi := by
  unfold clamp
  omega

/-- R199, R200: what a parameter stores lies in its range. -/
theorem holds_of_store {k : ParamKind} {v w : Nat} (hk : rangeOrdered k = true) (hv : k = .address → v < 2 ^ 48)
    (hw : k.store v = some w) : k.holds w = true := by
  cases k with
  | address =>
    simp only [ParamKind.store, Option.ite_none_left_eq_some, Option.some.injEq] at hw
    obtain ⟨hgroup, rfl⟩ := hw
    have hwidth := hv rfl
    simpa [ParamKind.holds, hgroup] using hwidth
  | enumerated lo hi =>
    simp only [ParamKind.store, Option.ite_none_right_eq_some, Option.some.injEq] at hw
    obtain ⟨⟨hlo, hhi⟩, rfl⟩ := hw
    simp [ParamKind.holds, hlo, hhi]
  | numeric lo hi =>
    obtain rfl : clamp lo hi v = w := Option.some.inj hw
    simpa [ParamKind.holds] using clamp_mem (of_decide_eq_true hk) v
  | mask bits =>
    obtain rfl : v &&& bits = w := Option.some.inj hw
    simp [ParamKind.holds]
  | seed =>
    obtain rfl : clamp 0 65535 v = w := Option.some.inj hw
    simpa [ParamKind.holds] using (clamp_mem (Nat.zero_le 65535) v).2

theorem beNat_lt (bs : List Byte) : beNat bs < 256 ^ bs.length := by
  induction bs with
  | nil => simp [beNat]
  | cons b bs ih =>
    rw [beNat_cons, List.length_cons, pow_succ]
    have hb : b.toNat * 256 ^ bs.length ≤ 255 * 256 ^ bs.length :=
      Nat.mul_le_mul_right _ (Nat.le_of_lt_succ b.isLt)
    omega

/-- R199, R200: SET_PARAM changes nothing, or stores in one parameter what its kind makes of a value of its width. -/
theorem setParamOf_cases (v : State) (args : List Byte) :
    (v.setParamOf args).state = v ∨ ∃ i written w, written < 256 ^ paramBytes i ∧ (paramKind i).store written = some w ∧
      (v.setParamOf args).state = { v with params := v.params.set i w } := by
  unfold State.setParamOf
  split
  · exact .inl rfl
  · rename_i i _
    dsimp only
    split
    · exact .inl rfl
    · split
      · exact .inl rfl
      · split
        · exact .inl rfl
        · rename_i w hw
          refine .inr ⟨i, _, w, ?_, hw, rfl⟩
          exact (beNat_lt _).trans_le (Nat.pow_le_pow_right (by decide) (List.length_take_le _ _))

theorem setParamOf_paramsOk {v : State} (hv : v.paramsOk) (args : List Byte) : (v.setParamOf args).state.paramsOk := by
  rcases setParamOf_cases v args with e | ⟨i, written, w, hlt, hw, e⟩
  · rwa [e]
  · have hin : (paramKind i).holds w = true :=
      holds_of_store (paramKind_ordered i) (fun ha => by rw [paramBytes_of_address i ha] at hlt; omega) hw
    rw [e]
    intro j
    by_cases hj : i = j
    · subst hj
      simpa using hin
    · have hij : i.val ≠ j.val := Fin.val_ne_of_ne hj
      simpa [Vector.getElem_set_ne, hij] using hv j

/-! ## The step -/

/-- R198, R199: every command but RESET and SET_PARAM leaves the parameters. -/
theorem exec_params {c : Instr} (hreset : c ≠ .reset) (hset : c ≠ .setParam) (h : exec c s = .next t) :
    t.params = s.params := by
  cases c <;> cases h
  case reset => exact absurd rfl hreset
  case setParam => exact absurd rfl hset
  case rxError p f => exact receive_params s p f
  case dataFrame p f => exact receive_params s p f
  case pulse p f => exact receive_params s p f
  case declare p f => exact receive_params s p f
  case flushed p f => exact receive_params s p f
  case syncAck p f => exact receive_params s p f
  case query p f => exact receive_params s p f
  case refusedCcf p f => exact receive_params s p f
  case linkUp p => exact linkRise_params s p
  case linkDown p => exact linkFall_params s p
  case transmitFrame p => exact transmit_params s p
  case releaseTurn => exact (releaseEvent_still s).params
  case packBatch => exact (packBatch_held s).params
  case walkCursorStep => exact (walkEvent_still s).params
  case pulseTimerExpiry f => exact pulseExpiry_params s f
  case classSweepExpiry c => exact asEvent_params ((classSweep_still s c).trans (finish_still _)).params
  case tentativeSweepExpiry => exact (tentativeSweep_still s).params
  case confirmSweepExpiry => exact asEvent_params ((confirmSweep_held s).toStill.trans (finish_still _)).params
  case parkSweepExpiry => exact asEvent_params ((parkSweep_held s).toStill.trans (finish_still _)).params
  case restartHoldExpiry => exact restartExpiry_params s
  case startupWaitExpiry => exact startupExpiry_params s
  case holdDownExpiry => exact holdDownEnds_params s
  case fitnessDwellExpiry => exact dwellEnds_params s
  case quiesceTimerExpiry => exact quiesceEnds_params s
  case lateWindowExpiry => exact lateEnds_params s
  case cutoverLimitExpiry => exact limitEnds_params s
  case getParam => exact serve_read_params s _ 1 (fun v args => congrArg State.params (getParamOf_state v args))
  case getStatus => exact serve_read_params s _ 0 (fun v _ => (clearLevels_held v).params)
  case getEntry => exact serve_read_params s _ 2 getEntryOf_params
  case findEntry => exact serve_read_params s _ 3 findEntryOf_params
  case list => exact serve_read_params s _ 6 (fun v args => congrArg State.params (listOf_state v args))
  case getCounters => exact serve_params s _ judgeCounters_params
  case getEvents => exact serve_read_params s _ 0 (fun _ _ => rfl)
  case clearEvents => exact serve_write_params s _ 2 (fun _ _ => rfl)
  case setPrefix => exact serve_write_params s _ 5 setPrefixOf_params
  case getPrefix => exact serve_read_params s _ 1 (fun v args => congrArg State.params (getPrefixOf_state v args))
  case switchover => exact serve_write_params s _ 1 (fun v _ => (judgeSwitchover_still v _).params)
  case resync => exact serve_write_params s _ 0 (fun v _ => resyncOf_params v)
  case purge => exact serve_write_params s _ 2 purgeOf_params
  case tableReset => exact serve_write_params s _ 0 (fun v _ => tableResetOf_params v)
  case unknownRequest => exact serve_params s _ (fun _ _ => rfl)

/-- R198, R199, R200: SET_PARAM, served or not, leaves every parameter in its range. -/
theorem execSetParam_paramsOk (hs : s.paramsOk) (h : exec .setParam s = .next t) : t.paramsOk := by
  cases h
  rcases serve_cases s (· == 2#8) (fun v q => v.judgeWrite q 1 State.setParamOf) with e | ⟨q, rest, e⟩
  · rwa [e]
  · rw [e]
    unfold State.paramsOk
    rw [(send_sends _ q).params]
    rcases judgeWrite_cases { s with requests := rest } q 1 State.setParamOf with hj | hj
    · rw [hj]; exact hs
    · rw [hj]; exact setParamOf_paramsOk (v := { s with requests := rest }) hs q.args

theorem exec_paramsOk {c : Instr} (hs : s.paramsOk) (h : exec c s = .next t) : t.paramsOk := by
  by_cases hreset : c = .reset
  · subst hreset
    cases h
    exact resetMeetsTheInvariants.2.1
  · by_cases hset : c = .setParam
    · subst hset
      exact execSetParam_paramsOk hs h
    · unfold State.paramsOk
      rwa [exec_params hreset hset h]

/-- Settles O5: only RESET and SET_PARAM write parameters; the defaults, and what R199 and R200 store, lie in their ranges. -/
theorem parametersStayInTheirRanges : Obligations.ParametersStayInTheirRanges := by
  intro s t hs hstep
  unfold step at hstep
  split at hstep
  · cases hstep; exact hs
  · rename_i c rest hpending
    exact exec_paramsOk (s := { s with pending := rest }) hs hstep

end Sys2Proof.Management

/-! The Request Queue and permission (R72, R185, R194 to R197): a QUERY taken at its port, and the requests that are refused. -/

namespace Sys2Proof.Management

open Sys2Proof Sys2Proof.Machine Sys2Proof.Laws Sys2Proof.SessionTable Sys2Proof.SessionDeclarations

variable {s t u : State} {q : Request} {rest : List Request}

/-! ## A QUERY (R194) -/

/-- R68, R71, R72, R185: a CCF that passes every check is handed to its owner at a port whose gate takes it. -/
theorem receive_goodCcf_at {k : CcfKind} {fr : Frame} {p : Port} (hg : goodCcf k fr = true) (hgate : s.gateTakes p = true)
    (ht : s.takenAt k p = true) : s.receive p fr = (s.inc (.framesIn p)).toOwner p k (readCcf fr) := by
  have hc : (s.inc (.framesIn p)).ccfCheck p (readCcf fr) = some k := ccfCheck_of_good hg ht
  have hgate : (s.inc (.framesIn p)).gateTakes p = true := hgate
  simp only [goodCcf, isCcfOf, Bool.and_eq_true] at hg
  obtain ⟨⟨⟨⟨⟨⟨hok, hccf⟩, huntagged⟩, -⟩, -⟩, -⟩, -⟩ := hg
  simp [State.receive, State.ccfFrameIn, State.takeCcf, hok, hccf, huntagged, hgate, hc]

/-- R72, R186: the ports that take a QUERY: the firewalls' IN ports, and LAN with LAN management on. -/
theorem query_taken {p : Port} (hp : p = .aIn ∨ p = .bIn ∨ (p = .lan ∧ s.param .lanManagement = 1)) :
    s.gateTakes p = true ∧ s.takenAt .query p = true := by
  rcases hp with rfl | rfl | ⟨rfl, hlan⟩
  · exact ⟨rfl, rfl⟩
  · exact ⟨rfl, rfl⟩
  · exact ⟨beq_iff_eq.mpr hlan, rfl⟩

theorem queueRequest_of_room (q : Request) (h : s.requests.length < 4) :
    s.queueRequest q = { s with requests := s.requests ++ [q] } := if_pos h

theorem queueRequest_of_full (q : Request) (h : 4 ≤ s.requests.length) : s.queueRequest q = s.inc .reqOverflow :=
  if_neg (Nat.not_lt.mpr h)

/-- Settles O49: the QUERY passes the gate and the checks of its port, and joins the queue that has room for it. -/
theorem queryJoinsTheRequestQueue : Obligations.QueryJoinsTheRequestQueue := by
  intro p fr s hg hp
  obtain ⟨hgate, htaken⟩ := query_taken hp
  have hexec : exec (.query p fr) s = .next ((s.inc (.framesIn p)).queueRequest (requestOf p (readCcf fr))) :=
    congrArg Host.Outcome.next (receive_goodCcf_at hg hgate htaken)
  refine ⟨fun hroom => ?_, fun hfull => ?_⟩
  · exact hexec.trans (congrArg Host.Outcome.next (queueRequest_of_room (s := s.inc (.framesIn p)) _ hroom))
  · exact hexec.trans (congrArg Host.Outcome.next (queueRequest_of_full (s := s.inc (.framesIn p)) _ hfull))

/-! ## Requests refused (R196, R197) -/

/-- R197: at its IN port, a firewall that is not active may not write while a firewall is not ABSENT. -/
theorem permitsWrite_inPort {f : Fw} (hf : s.role.active ≠ f)
    (hpresent : (s.fw .a).state ≠ .absent ∨ (s.fw .b).state ≠ .absent) : s.permitsWrite f.inPort = false := by
  have habsent : s.bothAbsent = false := by
    rcases hpresent with h | h <;> simp [State.bothAbsent, h]
  cases f <;> simp [State.permitsWrite, Fw.inPort, habsent, hf]

theorem judgeWrite_of_forbidden (hp : s.permitsWrite q.port = false) (n : Nat) (body : State → List Byte → Answer) :
    s.judgeWrite q n body = s.refuse .notPermitted := by
  simp [State.judgeWrite, hp]

/-- R193, R195: a request that is refused is answered with its status and changes nothing else. -/
theorem serve_refused {code : Byte} (hh : s.heads q rest code) {mine : Byte → Bool} (hm : mine code = true)
    {judge : State → Request → Answer} {st : Status}
    (hj : judge { s with requests := rest } q = State.refuse { s with requests := rest } st) :
    s.serve mine judge = s.answered q rest st [] := by
  rw [serve_of_heads hh hm, hj, send_answered hh rfl]
  cases st <;> rfl

/-- R197: a write that is not permitted is answered NOT_PERMITTED. -/
theorem serve_forbidden {code : Byte} (hh : s.heads q rest code) (hp : s.permitsWrite q.port = false) {mine : Byte → Bool}
    (hm : mine code = true) (n : Nat) (body : State → List Byte → Answer) :
    s.serve mine (fun v r => v.judgeWrite r n body) = s.answered q rest .notPermitted [] :=
  serve_refused hh hm (judgeWrite_of_forbidden (s := { s with requests := rest }) hp n body)

/-- R197, R204: a GET_COUNTERS with its clear flag set is judged as a write. -/
theorem judgeCounters_of_clear (h : byteAt q.args 0 ≠ 0#8) (v : State) :
    v.judgeCounters q = v.judgeWrite q 1 State.countersOf := if_pos (bne_iff_ne.mpr h)

/-- R196: the codes that name no request. -/
theorem knownCode_of_other {b : Byte} (h : b = 0#8 ∨ (12 ≤ b.toNat ∧ b.toNat ≤ 15) ∨ 20 ≤ b.toNat) :
    knownCode b = false := by
  have hcode : b.toNat = 0 ∨ (12 ≤ b.toNat ∧ b.toNat ≤ 15) ∨ 20 ≤ b.toNat := h.imp_left (fun e => by rw [e]; rfl)
  simp only [knownCode, Bool.or_eq_false_iff, decide_eq_false_iff_not]
  omega

/-- Settles O50: the eight writes stop at permission, and a code that names no request at the code. -/
theorem refusedRequestsChangeNothing : Obligations.RefusedRequestsChangeNothing := by
  refine ⟨fun s q rest c code f hmem hh hport hf hpresent hclear => ?_, fun s q rest hh hcode => ?_⟩
  · have hp : s.permitsWrite q.port = false := hport ▸ permitsWrite_inPort hf hpresent
    have hforbidden : ∀ (mine : Byte → Bool) (n : Nat) (body : State → List Byte → Answer), mine code = true →
        Host.Outcome.next (s.serve mine (fun v r => v.judgeWrite r n body)) =
          (.next (s.answered q rest .notPermitted []) : Host.Outcome State Fault Refusal) :=
      fun mine n body hm => congrArg Host.Outcome.next (serve_forbidden hh hp hm n body)
    simp only [List.mem_cons, Prod.mk.injEq, List.not_mem_nil, or_false] at hmem
    rcases hmem with ⟨rfl, rfl⟩ | ⟨rfl, rfl⟩ | ⟨rfl, rfl⟩ | ⟨rfl, rfl⟩ | ⟨rfl, rfl⟩ | ⟨rfl, rfl⟩ | ⟨rfl, rfl⟩ | ⟨rfl, rfl⟩
    case inr.inr.inr.inr.inr.inr.inr =>
      refine congrArg Host.Outcome.next (serve_refused hh rfl ?_)
      rw [judgeCounters_of_clear (hclear rfl)]
      exact judgeWrite_of_forbidden (s := { s with requests := rest }) hp 1 _
    all_goals exact hforbidden _ _ _ rfl
  · have hknown : knownCode q.code = false := knownCode_of_other hcode
    exact congrArg Host.Outcome.next (serve_refused hh (by simp [hknown]) rfl)

end Sys2Proof.Management

/-! GET_PARAM and SET_PARAM (R196, R198 to R200). -/

namespace Sys2Proof.Management

open Sys2Proof Sys2Proof.Machine Sys2Proof.Laws Sys2Proof.SessionTable Sys2Proof.SessionDeclarations

variable {s t u : State} {q : Request} {rest : List Request} {i : Fin 37} {v w : Nat} {more : List Byte}

/-! ## The parameter that an id names (R196) -/

theorem paramIndex_of_id {b : Byte} (h : b.toNat = i.val + 1) : paramIndex b = some i := by
  have hb : 1 ≤ b.toNat ∧ b.toNat ≤ 37 := by omega
  rw [paramIndex, dif_pos hb]
  exact congrArg some (Fin.ext (by simp [h]))

theorem paramIndex_of_none {b : Byte} (h : b.toNat = 0 ∨ 38 ≤ b.toNat) : paramIndex b = none :=
  dif_neg (by omega)

theorem paramBytes_eq (i : Fin 37) : paramBytes i = if i = 0 then 6 else 4 := by
  simp only [paramBytes, Fin.val_eq_zero_iff]

/-! ## GET_PARAM (R199) -/

theorem exec_getParam (hh : s.heads q rest 1) (hp : s.permitsRead q.port = true) (hn : 1 ≤ q.args.length) :
    exec .getParam s = .next ((State.getParamOf { s with requests := rest } q.args).send q) :=
  congrArg Host.Outcome.next (serve_read hh hp rfl hn State.getParamOf)

theorem getParamOf_id {b : Byte} (h : b.toNat = i.val + 1) (s : State) :
    s.getParamOf (b :: more) = { status := .ok, results := paramResults i s.params[i], state := s } := by
  have hi : paramIndex (byteAt (b :: more) 0) = some i := paramIndex_of_id h
  simp only [State.getParamOf, hi]

theorem getParamOf_none {b : Byte} (h : b.toNat = 0 ∨ 38 ≤ b.toNat) (s : State) :
    s.getParamOf (b :: more) = s.refuse .unknown := by
  have hi : paramIndex (byteAt (b :: more) 0) = none := paramIndex_of_none h
  simp only [State.getParamOf, hi]

/-! ## SET_PARAM (R199, R200) -/

/-- R198: the arguments of a SET_PARAM. -/
def paramArgs (i : Fin 37) (v : Nat) (more : List Byte) : List Byte :=
  be1 (i.val + 1) ++ beBytes (paramBytes i) v ++ more

theorem length_paramArgs (i : Fin 37) (v : Nat) (more : List Byte) : 1 + paramBytes i ≤ (paramArgs i v more).length := by
  simp [paramArgs, be1, length_beBytes]
  omega

theorem paramIndex_paramArgs (i : Fin 37) (v : Nat) (more : List Byte) :
    paramIndex (byteAt (paramArgs i v more) 0) = some i :=
  paramIndex_of_id (toNat_byte (by omega))

/-- R198: the value in the arguments is read back. -/
theorem value_paramArgs (hv : v < 256 ^ paramBytes i) :
    beNat (((paramArgs i v more).drop 1).take (paramBytes i)) = v := by
  have hdrop : (paramArgs i v more).drop 1 = beBytes (paramBytes i) v ++ more := rfl
  rw [hdrop, List.take_left' (length_beBytes _ _), beNat_beBytes, Nat.mod_eq_of_lt hv]

/-- R199, R200: SET_PARAM of good arguments: the seed is held while an entry is in use; else the kind says what is stored. -/
theorem setParamOf_paramArgs (hv : v < 256 ^ paramBytes i) (s : State) : s.setParamOf (paramArgs i v more) =
    if paramKind i = .seed ∧ s.table.occupancy ≠ 0 then s.refuse .busy
    else ((paramKind i).store v).elim (s.refuse .badArg) (s.storeParam i v) := by
  simp only [State.setParamOf, paramIndex_paramArgs, value_paramArgs hv, Nat.not_lt.mpr (length_paramArgs i v more), if_false]
  cases (paramKind i).store v <;> rfl

theorem setParamOf_busy (hv : v < 256 ^ paramBytes i) (hk : paramKind i = .seed) (ho : s.table.occupancy ≠ 0) :
    s.setParamOf (paramArgs i v more) = s.refuse .busy :=
  (setParamOf_paramArgs hv s).trans (if_pos ⟨hk, ho⟩)

theorem setParamOf_refused (hv : v < 256 ^ paramBytes i) (hk : paramKind i ≠ .seed) (hw : (paramKind i).store v = none) :
    s.setParamOf (paramArgs i v more) = s.refuse .badArg := by
  rw [setParamOf_paramArgs hv, if_neg (fun h => hk h.1), hw, Option.elim_none]

theorem setParamOf_stored (hv : v < 256 ^ paramBytes i) (hk : paramKind i = .seed → s.table.occupancy = 0)
    (hw : (paramKind i).store v = some w) : s.setParamOf (paramArgs i v more) = s.storeParam i v w := by
  rw [setParamOf_paramArgs hv, if_neg (fun h => h.2 (hk h.1)), hw, Option.elim_some]

theorem exec_setParam (hh : s.heads q rest 2) (hp : s.permitsWrite q.port = true) (ha : q.args = paramArgs i v more) :
    exec .setParam s = .next ((State.setParamOf { s with requests := rest } (paramArgs i v more)).send q) := by
  have hn : 1 ≤ q.args.length := ha ▸ (Nat.le_add_right 1 _).trans (length_paramArgs i v more)
  rw [← ha]
  exact congrArg Host.Outcome.next (serve_write hh hp rfl hn State.setParamOf)

/-- R193, R199: the REPLY to a value stored shows the value, CLAMPED when it is not the one written. -/
theorem storeParam_send (s : State) (q : Request) (i : Fin 37) (v w : Nat) : (s.storeParam i v w).send q =
    ({ s with params := s.params.set i w } : State).handTx q.port
      (({ s with params := s.params.set i w } : State).replyFrame q (if w = v then .ok else .clamped) (paramResults i w)) := by
  unfold State.storeParam
  split <;> rfl

/-- From `s`, SET_PARAM stores `w` in a parameter and answers with it under the status. -/
def Stores (s : State) (q : Request) (rest : List Request) (i : Fin 37) (w : Nat) (st : Status) : Prop :=
  exec .setParam s = .next (({ s with requests := rest, params := s.params.set i w } : State).handTx q.port
    (({ s with params := s.params.set i w } : State).replyFrame q st (paramResults i w)))

section
variable (hh : s.heads q rest 2) (hp : s.permitsWrite q.port = true) (ha : q.args = paramArgs i v more)
  (hv : v < 256 ^ paramBytes i)
include hh hp ha hv

theorem stores_of_store {st : Status} (hk : paramKind i = .seed → s.table.occupancy = 0)
    (hw : (paramKind i).store v = some w) (hst : (if w = v then .ok else .clamped) = st) : Stores s q rest i w st := by
  have hset : State.setParamOf { s with requests := rest } (paramArgs i v more) = _ := setParamOf_stored hv hk hw
  rw [Stores, exec_setParam hh hp ha, hset, storeParam_send, hst]
  rfl

theorem exec_setParam_badArg (hk : paramKind i ≠ .seed) (hw : (paramKind i).store v = none) :
    exec .setParam s = .next (s.answered q rest .badArg []) := by
  rw [exec_setParam hh hp ha, setParamOf_refused hv hk hw]
  exact congrArg Host.Outcome.next (send_answered hh rfl)

theorem exec_setParam_busy (hk : paramKind i = .seed) (ho : s.table.occupancy ≠ 0) :
    exec .setParam s = .next (s.answered q rest .busy []) := by
  have hset : State.setParamOf { s with requests := rest } (paramArgs i v more) = _ := setParamOf_busy hv hk ho
  rw [exec_setParam hh hp ha, hset]
  exact congrArg Host.Outcome.next (send_answered hh rfl)

end

/-! ## What is stored, by kind (R199) -/

theorem clamp_of_mem {lo hi : Nat} (hlo : lo ≤ v) (hhi : v ≤ hi) : clamp lo hi v = v := by unfold clamp; omega

theorem clamp_of_lt {lo : Nat} (hi : Nat) (hlo : v < lo) : clamp lo hi v = lo := by unfold clamp; omega

theorem clamp_of_gt {lo hi : Nat} (h : lo ≤ hi) (hhi : hi < v) : clamp lo hi v = hi := by unfold clamp; omega

/-- Settles O51: the id names the parameter, and its kind says what is stored of the value. -/
theorem parametersAreReadAndWritten : Obligations.ParametersAreReadAndWritten := by
  refine ⟨fun s q rest b more hh hp ha => ⟨fun i hi => ?_, fun hb => ?_⟩, fun s q rest i v more hh hp => ?_⟩
  · rw [exec_getParam hh hp (by simp [ha]), ha, getParamOf_id hi, ← paramBytes_eq]
    exact congrArg Host.Outcome.next (send_answered hh rfl)
  · rw [exec_getParam hh hp (by simp [ha]), ha, getParamOf_none hb]
    exact congrArg Host.Outcome.next (send_answered hh rfl)
  · rw [← paramBytes_eq]
    intro ha hv stores
    have hstores : ∀ {w : Nat} {st : Status}, (paramKind i = .seed → s.table.occupancy = 0) →
        (paramKind i).store v = some w → (if w = v then .ok else .clamped) = st → stores w st :=
      stores_of_store hh hp ha hv
    have hbad := exec_setParam_badArg hh hp ha hv
    refine ⟨fun lo hi hk hlo hhi => ?_, fun lo hi hk _ hlo => ?_, fun lo hi hk hle hhi => ?_, fun lo hi hk hlo hhi => ?_,
      fun lo hi hk hout => ?_, fun n hk => ?_, fun hk hgroup => ?_, fun hk hgroup => ?_, fun hk ho => ?_,
      fun hk ho hle => ?_, fun hk ho hgt => ?_⟩
    · exact hstores (by simp [hk]) (by rw [hk, ParamKind.store, clamp_of_mem hlo hhi]) (if_pos rfl)
    · exact hstores (by simp [hk]) (by rw [hk, ParamKind.store, clamp_of_lt hi hlo]) (if_neg (by omega))
    · exact hstores (by simp [hk]) (by rw [hk, ParamKind.store, clamp_of_gt hle hhi]) (if_neg (by omega))
    · exact hstores (by simp [hk]) (by rw [hk]; exact if_pos ⟨hlo, hhi⟩) (if_pos rfl)
    · exact hbad (by simp [hk]) (by rw [hk]; exact if_neg (by omega))
    · exact hstores (by simp [hk]) (by rw [hk]; rfl) rfl
    · exact hbad (by simp [hk]) (by rw [hk]; exact if_pos hgroup)
    · exact hstores (by simp [hk]) (by rw [hk, ParamKind.store, hgroup]; rfl) (if_pos rfl)
    · exact exec_setParam_busy hh hp ha hv hk ho
    · exact hstores (fun _ => ho) (by rw [hk, ParamKind.store, clamp_of_mem (Nat.zero_le v) hle]) (if_pos rfl)
    · exact hstores (fun _ => ho) (by rw [hk, ParamKind.store, clamp_of_gt (Nat.zero_le _) hgt]) (if_neg (by omega))

end Sys2Proof.Management

/-! GET_EVENTS and CLEAR_EVENTS (R204, R210, R213). -/

namespace Sys2Proof.Management

open Sys2Proof Sys2Proof.Machine Sys2Proof.Laws Sys2Proof.SessionTable

variable {s t u : State} {q : Request} {rest : List Request}

/-! ## The flags as a number (R204) -/

theorem flagMask_cons (e : EventState) (es : List EventState) : flagMask (e :: es) = Nat.bit e.flag (flagMask es) := by
  rw [Nat.bit_val]
  rfl

theorem flagMask_lt (es : List EventState) : flagMask es < 2 ^ es.length := by
  induction es with
  | nil => decide
  | cons e es ih =>
    rw [flagMask_cons, Nat.bit_val, List.length_cons, pow_succ]
    have := Bool.toNat_le e.flag
    omega

/-- R204: bit n of the number is the flag at place n. -/
theorem testBit_flagMask (es : List EventState) (n : Nat) (h : n < es.length) : (flagMask es).testBit n = es[n].flag := by
  induction es generalizing n with
  | nil => exact absurd h (Nat.not_lt_zero n)
  | cons e es ih =>
    rw [flagMask_cons]
    cases n with
    | zero => exact Nat.testBit_bit_zero _ _
    | succ n => rw [Nat.testBit_bit_succ]; exact ih n (Nat.lt_of_succ_lt_succ h)

/-! ## Fields read back (R189) -/

theorem length_be2 (n : Nat) : (be2 n).length = 2 := length_beBytes 2 _

theorem beNat_be2 {n : Nat} (h : n ≤ 65535) : beNat (be2 n) = n := by
  rw [be2, beNat_beBytes, Nat.min_eq_left h, Nat.mod_eq_of_lt (by omega)]

/-- Fields of one width, written one after the other, stand at the multiples of the width. -/
theorem take_drop_flatten {α : Type} {k : Nat} {fs : List (List α)} (hk : ∀ f ∈ fs, f.length = k) (n : Nat)
    (hn : n < fs.length) : (fs.flatten.drop (k * n)).take k = fs[n] := by
  induction fs generalizing n with
  | nil => exact absurd hn (Nat.not_lt_zero n)
  | cons f fs ih =>
    have hf : f.length = k := hk f List.mem_cons_self
    cases n with
    | zero => exact List.take_left' hf
    | succ n =>
      rw [List.flatten_cons, Nat.mul_succ, Nat.add_comm, ← List.drop_drop, List.drop_left' hf]
      exact ih (fun g hg => hk g (List.mem_cons_of_mem f hg)) n (Nat.lt_of_succ_lt_succ hn)

/-- R204: the occurrence counts, 2 bytes each. -/
def countFields (s : State) : List (List Byte) := s.events.toList.map (fun e => be2 e.count)

theorem length_countFields (s : State) : (countFields s).length = 16 := by simp [countFields]

theorem length_of_mem_countFields {f : List Byte} (h : f ∈ countFields s) : f.length = 2 := by
  obtain ⟨e, -, rfl⟩ := List.mem_map.mp h
  exact length_be2 _

theorem length_countFields_flatten (s : State) : (countFields s).flatten.length = 32 := by
  rw [List.length_flatten, List.map_congr_left (fun f hf => length_of_mem_countFields hf)]
  simp [length_countFields]

/-- R204: an event's occurrence count is read back at the place of its code. -/
theorem countFields_event (s : State) (ev : EventId) :
    ((countFields s).flatten.drop (2 * ev.index.val)).take 2 = be2 (s.event ev).count := by
  rw [take_drop_flatten (fun f hf => length_of_mem_countFields hf) _ (by rw [length_countFields]; exact ev.index.isLt)]
  simp [countFields, State.event]

theorem testBit_flagMask_events (es : Vector EventState 16) (ev : EventId) :
    (flagMask es.toList).testBit ev.index.val = es[ev.index].flag := by
  rw [testBit_flagMask _ _ (by simp)]
  simp

theorem flagMask_events_le (es : Vector EventState 16) : flagMask es.toList ≤ 65535 := by
  have h := flagMask_lt es.toList
  rw [Vector.length_toList] at h
  omega

theorem testBit_be2_flagMask (es : Vector EventState 16) (ev : EventId) :
    (beNat (be2 (flagMask es.toList))).testBit ev.index.val = es[ev.index].flag := by
  rw [beNat_be2 (flagMask_events_le es), testBit_flagMask_events]

/-! ## GET_EVENTS -/

/-- R204: the results of GET_EVENTS. -/
def eventBytes (s : State) : List Byte :=
  be2 (flagMask s.events.toList) ++ be2 (s.param .noticeEnable) ++ (countFields s).flatten

theorem exec_getEvents (hh : s.heads q rest 8) (hp : s.permitsRead q.port = true) :
    exec .getEvents s = .next (s.answered q rest .ok (eventBytes s)) :=
  congrArg Host.Outcome.next ((serve_read hh hp rfl (Nat.zero_le _) (fun u _ => u.eventsOf)).trans (send_answered hh rfl))

theorem length_eventBytes (s : State) : (eventBytes s).length = 36 := by
  simp only [eventBytes, List.length_append, length_be2, length_countFields_flatten]

theorem flags_eventBytes (s : State) : (eventBytes s).take 2 = be2 (flagMask s.events.toList) := by
  rw [eventBytes, List.append_assoc, List.take_left' (length_be2 _)]

theorem enable_eventBytes (s : State) : ((eventBytes s).drop 2).take 2 = be2 (s.param .noticeEnable) := by
  rw [eventBytes, List.append_assoc, List.drop_left' (length_be2 _), List.take_left' (length_be2 _)]

theorem counts_eventBytes (s : State) (ev : EventId) :
    ((eventBytes s).drop (4 + 2 * ev.index.val)).take 2 = be2 (s.event ev).count := by
  rw [eventBytes, ← List.drop_drop, List.drop_left' (by simp [length_be2]), countFields_event]

/-! ## CLEAR_EVENTS (R213) -/

/-- R213: the events left by a mask: those whose bits it sets are cleared. -/
def clearedEvents (s : State) (mask : Nat) : Vector EventState 16 :=
  s.events.mapFinIdx (fun i e _ => if mask.testBit i then { flag := false, count := 0 } else e)

theorem clearedEvents_event (s : State) (mask : Nat) (ev : EventId) : (clearedEvents s mask)[ev.index] =
    if mask.testBit ev.index.val then { flag := false, count := 0 } else s.event ev := by
  simp [clearedEvents, State.event]

theorem exec_clearEvents {b0 b1 : Byte} {more : List Byte} (hh : s.heads q rest 9) (hp : s.permitsWrite q.port = true)
    (ha : q.args = b0 :: b1 :: more) :
    let es := clearedEvents s (b0.toNat * 256 + b1.toNat)
    exec .clearEvents s = .next { s.answered q rest .ok (be2 (flagMask es.toList)) with events := es } := by
  intro es
  refine congrArg Host.Outcome.next ((serve_write hh hp rfl (by simp [ha]) State.clearEventsOf).trans ?_)
  have hclear : State.clearEventsOf { s with requests := rest } q.args =
      { status := .ok, results := be2 (flagMask es.toList), state := { s with requests := rest, events := es } } := by
    rw [ha, State.clearEventsOf, word16At_pair]
    rfl
  rw [hclear]
  exact send_of_canHand (canHand_of_heads hh rfl)

/-- Settles O53: each field of the report read back at its place, and the events that the mask leaves. -/
theorem eventsAreReadAndCleared : Obligations.EventsAreReadAndCleared := by
  refine fun s q rest => ⟨fun hh hp => ?_, fun b0 b1 more hh hp ha => ?_⟩
  · refine ⟨eventBytes s, length_eventBytes s, exec_getEvents hh hp, fun ev => ?_, fun hle => ?_, fun ev hle => ?_⟩
    · rw [flags_eventBytes, testBit_be2_flagMask]
      rfl
    · rw [enable_eventBytes, beNat_be2 hle]
    · rw [counts_eventBytes, beNat_be2 hle]
  · exact ⟨_, exec_clearEvents hh hp ha, rfl, clearedEvents_event s _, _, length_be2 _, rfl, testBit_be2_flagMask _⟩

end Sys2Proof.Management

/-! LIST (R203): what a scan of the table lists, and where it ends. -/

namespace Sys2Proof.Management

open Sys2Proof Sys2Proof.Machine Sys2Proof.Laws Sys2Proof.SessionTable

variable {s : State} {q : Request} {rest : List Request} {f : Filter}

/-! ## The scan -/

/-- R203: what a scan from handle `h` with room for `room` handles gives: the handles listed and the next cursor. -/
structure Scanned (s : State) (f : Filter) (h room : Nat) (hs : List Nat) (next : Nat) : Prop where
  ahead : h < next
  fits : hs.length ≤ room
  rising : hs.Pairwise (· < ·)
  listed : ∀ g ∈ hs, h ≤ g ∧ g < 16384 ∧ g < next ∧ s.passes f g = true
  ends : next = 65535 ∨ (next < 16384 ∧ hs.length = room)
  complete : ∀ g, h ≤ g → g < 16384 → g < next → s.passes f g = true → g ∈ hs

/-- Past the last handle nothing is left to list. -/
theorem scanned_end (s : State) (f : Filter) (room : Nat) : Scanned s f 16384 room [] 65535 where
  ahead := by decide
  fits := Nat.zero_le room
  rising := .nil
  listed := nofun
  ends := .inl rfl
  complete := fun g hlo hhi => absurd hhi (Nat.not_lt.mpr hlo)

/-- A handle that does not pass is left out. -/
theorem Scanned.skip {h room next : Nat} {hs : List Nat} (k : Scanned s f (h + 1) room hs next)
    (hp : s.passes f h = false) : Scanned s f h room hs next where
  ahead := Nat.lt_of_succ_lt k.ahead
  fits := k.fits
  rising := k.rising
  listed := fun g hg => by
    obtain ⟨hlo, hrest⟩ := k.listed g hg
    exact ⟨Nat.le_of_succ_le hlo, hrest⟩
  ends := k.ends
  complete := fun g hlo hhi hnext hg => by
    have hne : g ≠ h := fun e => by rw [e, hp] at hg; cases hg
    exact k.complete g (by omega) hhi hnext hg

/-- A handle that passes is listed, and the scan goes on with room for one less. -/
theorem Scanned.take {h room next : Nat} {hs : List Nat} (k : Scanned s f (h + 1) room hs next) (hh : h < 16384)
    (hp : s.passes f h = true) : Scanned s f h (room + 1) (h :: hs) next where
  ahead := Nat.lt_of_succ_lt k.ahead
  fits := Nat.succ_le_succ k.fits
  rising := .cons (fun g hg => (k.listed g hg).1) k.rising
  listed := fun g hg => by
    rcases List.mem_cons.mp hg with rfl | hg
    · exact ⟨Nat.le_refl _, hh, Nat.lt_of_succ_lt k.ahead, hp⟩
    · obtain ⟨hlo, hrest⟩ := k.listed g hg
      exact ⟨Nat.le_of_succ_le hlo, hrest⟩
  ends := k.ends.imp_right (fun ⟨hlt, hlen⟩ => ⟨hlt, congrArg Nat.succ hlen⟩)
  complete := fun g hlo hhi hnext hg => by
    rcases Nat.eq_or_lt_of_le hlo with rfl | hlt
    · exact List.mem_cons_self
    · exact List.mem_cons_of_mem h (k.complete g hlt hhi hnext hg)

/-- A handle that takes the last room ends the scan, with the handle after it as the next cursor, if there is one. -/
theorem scanned_last {h : Nat} (hh : h < 16384) (hp : s.passes f h = true) :
    Scanned s f h 1 [h] (if h + 1 = 16384 then 65535 else h + 1) where
  ahead := by split <;> omega
  fits := Nat.le_refl 1
  rising := List.pairwise_singleton _ h
  listed := fun g hg => by
    obtain rfl := List.mem_singleton.mp hg
    exact ⟨Nat.le_refl _, hh, by split <;> omega, hp⟩
  ends := by
    split
    · exact .inl rfl
    · exact .inr ⟨by omega, rfl⟩
  complete := fun g hlo hhi hnext _ => by
    rw [List.mem_singleton]
    split at hnext <;> omega

theorem scan_scanned (s : State) (f : Filter) (n h room : Nat) (hn : h + n = 16384) (hr : 1 ≤ room) :
    Scanned s f h room (s.scan f n h room).1 (s.scan f n h room).2 := by
  induction n generalizing h room with
  | zero =>
    obtain rfl : h = 16384 := hn
    exact scanned_end s f room
  | succ n ih =>
    cases hp : s.passes f h with
    | false =>
      simp only [State.scan, hp, Bool.false_eq_true, if_false]
      exact (ih (h + 1) room (by omega) hr).skip hp
    | true =>
      by_cases hlast : room ≤ 1
      · obtain rfl : room = 1 := by omega
        have hend : n = 0 ↔ h + 1 = 16384 := by omega
        simp only [State.scan, hp, Nat.le_refl, if_true, hend]
        exact scanned_last (by omega) hp
      · obtain ⟨r, rfl⟩ : ∃ r, room = r + 1 := ⟨room - 1, by omega⟩
        simp only [State.scan, hp, hlast, if_true, if_false, Nat.add_sub_cancel]
        exact (ih (h + 1) r (by omega) (by omega)).take (by omega) hp

/-! ## The request -/

theorem exec_list (hh : s.heads q rest 6) (hp : s.permitsRead q.port = true) (hn : 6 ≤ q.args.length) :
    exec .list s = .next ((State.listOf { s with requests := rest } q.args).send q) :=
  congrArg Host.Outcome.next (serve_read hh hp rfl hn State.listOf)

theorem scan_requests (s : State) (rest : List Request) (f : Filter) (n h room : Nat) :
    State.scan { s with requests := rest } f n h room = s.scan f n h room := by
  induction n generalizing h room with
  | zero => rfl
  | succ n ih =>
    have hpass : State.passes { s with requests := rest } f h = s.passes f h := rfl
    simp only [State.scan, hpass, ih]

/-- Settles O56: the scan lists what passes, in order, to the end of the table or of its room. -/
theorem listScansTheTable : Obligations.ListScansTheTable := by
  intro s q rest hh hp hn cursor f
  refine ⟨fun hcur hok => ?_, fun hbad => ?_⟩
  · have k := scan_scanned s f (16384 - cursor) cursor 16 (by omega) (by decide)
    refine ⟨_, _, ?_, k.fits, k.rising, fun g hg => ?_, k.ends, k.complete⟩
    · have hlist : State.listOf { s with requests := rest } q.args = _ := if_pos ⟨hcur, hok⟩
      rw [exec_list hh hp hn, hlist, scan_requests]
      exact congrArg Host.Outcome.next (send_answered hh rfl)
    · exact k.listed g hg
  · have hlist : State.listOf { s with requests := rest } q.args = State.refuse { s with requests := rest } .badArg :=
      if_neg (fun ⟨hcur, hok⟩ => hbad.elim (Nat.not_le.mpr hcur) (fun h => by rw [h] at hok; cases hok))
    rw [exec_list hh hp hn, hlist]
    exact congrArg Host.Outcome.next (send_answered hh rfl)

end Sys2Proof.Management

/-! The queue of waiting commands (log entries 6, 8, 9): a step takes its front, and no command touches it. `Kept.pending` says so of
the shared operations; the rest here is what the commands do beside them. -/

namespace Sys2Proof.CommandQueue

open Sys2Proof Sys2Proof.Machine Sys2Proof.Laws

variable {s t : State}

/-! ## The front of the queue -/

theorem step_of_cons {c : Instr} {rest : List Instr} (h : s.pending = c :: rest) :
    step s = exec c { s with pending := rest } := by
  unfold step
  rw [h]

theorem step_of_nil (h : s.pending = []) : step s = .next s := by
  unfold step
  rw [h]

/-- Settles O1: the step is a match on the queue. -/
theorem stepRunsTheFrontCommand : Obligations.StepRunsTheFrontCommand :=
  ⟨fun _ _ _ h => step_of_cons h, fun _ h => step_of_nil h⟩

/-! ## Events and timers (R110, R139) -/

@[simp] theorem asEvent_pending (s : State) (body : State → State) : (s.asEvent body).pending = (body s).pending :=
  (sendRoleChanges_held _ _ _ _).pending

@[simp] theorem finish_pending (s : State) : s.finish.pending = s.pending := (finish_still s).pending

@[simp] theorem startupTest_pending (s : State) : s.startupTest.pending = s.pending := (startupTest_moved s).pending

@[simp] theorem preemptTest_pending (s : State) : s.preemptTest.pending = s.pending := (preemptTest_held s).pending

@[simp] theorem makeTransfer_pending (s : State) : s.makeTransfer.pending = s.pending := (makeTransfer_moved s).pending

@[simp] theorem releaseAll_pending (s : State) : s.releaseAll.pending = s.pending := (releaseAll_held s).pending

theorem restartExpiry_pending (s : State) : s.restartExpiry.pending = s.pending := by
  unfold State.restartExpiry
  split <;> rfl

theorem startupExpiry_pending (s : State) : s.startupExpiry.pending = s.pending := by
  unfold State.startupExpiry
  split <;> simp

theorem holdDownEnds_pending (s : State) : s.holdDownEnds.pending = s.pending := by
  unfold State.holdDownEnds
  split <;> simp

theorem dwellEnds_pending (s : State) : s.dwellEnds.pending = s.pending := by
  unfold State.dwellEnds
  split <;> simp

theorem quiesceEnds_pending (s : State) : s.quiesceEnds.pending = s.pending := by
  unfold State.quiesceEnds
  split
  · rw [asEvent_pending]
    dsimp only
    split <;> simp
  · rfl

theorem lateEnds_pending (s : State) : s.lateEnds.pending = s.pending := by
  unfold State.lateEnds
  split <;> rfl

theorem limitEnds_pending (s : State) : s.limitEnds.pending = s.pending := by
  unfold State.limitEnds
  split <;> simp

/-! ## Health and links -/

theorem pulseExpiry_pending (s : State) (f : Fw) : (s.pulseExpiry f).pending = s.pending := by
  unfold State.pulseExpiry
  split
  · exact (handIfChanged_moved _ s f).pending.trans (raiseHealth_held (s.setFw f _) f _ _).pending
  · rfl

theorem linkRise_pending (s : State) (p : Port) : (s.linkRise p).pending = s.pending := by
  unfold State.linkRise
  split
  · rfl
  · exact (raise_held _ _ _).pending

theorem linkFall_pending (s : State) (p : Port) : (s.linkFall p).pending = s.pending := by
  have hport : ((s.dropLink p).raisePortLink p .down).pending = s.pending := (raise_held _ _ _).pending
  unfold State.linkFall
  split
  · rfl
  · dsimp only
    split
    · exact (FramePath.linkLoss_fromDowned _ _).pending.trans hport
    · exact hport

theorem transmit_pending (s : State) (p : Port) : (s.transmit p).pending = s.pending := by
  unfold State.transmit
  split <;> rfl

/-! ## Frames that arrive -/

theorem bySender_pending (p : Port) {act : Fw → State} (h : ∀ f, (act f).pending = s.pending) :
    (s.bySender p act).pending = s.pending := by
  unfold State.bySender
  split
  · exact h _
  · rfl

theorem syncAckFrom_pending (s : State) (c : Ccf) : (s.syncAckFrom c).pending = s.pending := by
  unfold State.syncAckFrom
  rw [asEvent_pending, finish_pending]
  exact (syncAck_still s _ _).pending

theorem queueRequest_pending (s : State) (q : Request) : (s.queueRequest q).pending = s.pending := by
  unfold State.queueRequest
  split <;> rfl

theorem toOwner_pending (s : State) (p : Port) (k : CcfKind) (c : Ccf) : (s.toOwner p k c).pending = s.pending := by
  cases k
  case pulse => exact bySender_pending p (fun f => (MirrorChannel.pulseFrom_kept s f c).pending)
  case declare => exact bySender_pending p (fun f => (declareFrom_moved s f c).pending)
  case flushed => exact bySender_pending p (fun f => (flushedFrom_moved s f c).pending)
  case syncAck => exact syncAckFrom_pending s c
  case query => exact queueRequest_pending s _
  case role | drain | sync | notice | reply => rfl

theorem ccfFrameIn_pending (s : State) (p : Port) (f : Frame) : (s.ccfFrameIn p f).pending = s.pending := by
  unfold State.ccfFrameIn State.takeCcf
  split
  · split
    · rfl
    · split
      · exact toOwner_pending s p _ _
      · rfl
  · rfl

theorem receive_pending (s : State) (p : Port) (f : Frame) : (s.receive p f).pending = s.pending := by
  unfold State.receive
  split
  · dsimp only
    split
    · exact ccfFrameIn_pending _ p f
    · exact (dataFrame_still _ p f).pending
  · rfl

/-! ## Requests -/

/-- A rule that judges requests and leaves the queue of commands. -/
def LeavesQueue (judge : State → Request → Answer) : Prop := ∀ v q, (judge v q).state.pending = v.pending

theorem serve_pending (s : State) (mine : Byte → Bool) {judge : State → Request → Answer} (h : LeavesQueue judge) :
    (s.serve mine judge).pending = s.pending := by
  rcases Management.serve_cases s mine judge with e | ⟨q, rest, e⟩
  · rw [e]
  · rw [e]
    exact (handTx_held _ _ _).pending.trans (h _ q)

section
variable {body : State → List Byte → Answer} (h : ∀ v args, (body v args).state.pending = v.pending)
include h

theorem judgeRead_leavesQueue (n : Nat) : LeavesQueue (fun v q => v.judgeRead q n body) := fun v q => by
  rcases Management.judgeRead_cases v q n body with e | e
  · exact congrArg State.pending e
  · exact (congrArg (·.state.pending) e).trans (h v q.args)

theorem judgeWrite_leavesQueue (n : Nat) : LeavesQueue (fun v q => v.judgeWrite q n body) := fun v q => by
  rcases Management.judgeWrite_cases v q n body with e | e
  · exact congrArg State.pending e
  · exact (congrArg (·.state.pending) e).trans (h v q.args)

theorem serveRead_pending (s : State) (mine : Byte → Bool) (n : Nat) :
    (s.serve mine (fun v q => v.judgeRead q n body)).pending = s.pending :=
  serve_pending s mine (judgeRead_leavesQueue h n)

theorem serveWrite_pending (s : State) (mine : Byte → Bool) (n : Nat) :
    (s.serve mine (fun v q => v.judgeWrite q n body)).pending = s.pending :=
  serve_pending s mine (judgeWrite_leavesQueue h n)

end

theorem getParamOf_pending (v : State) (args : List Byte) : (v.getParamOf args).state.pending = v.pending :=
  congrArg State.pending (Management.getParamOf_state v args)

theorem setParamOf_pending (v : State) (args : List Byte) : (v.setParamOf args).state.pending = v.pending := by
  rcases Management.setParamOf_cases v args with e | ⟨i, written, w, -, -, e⟩ <;> rw [e]

theorem getEntryOf_pending (v : State) (args : List Byte) : (v.getEntryOf args).state.pending = v.pending := by
  unfold State.getEntryOf
  split <;> rfl

theorem findEntryOf_pending (v : State) (args : List Byte) : (v.findEntryOf args).state.pending = v.pending := by
  unfold State.findEntryOf
  split
  · rfl
  · split <;> rfl

theorem listOf_pending (v : State) (args : List Byte) : (v.listOf args).state.pending = v.pending :=
  congrArg State.pending (Management.listOf_state v args)

theorem countersOf_pending (v : State) (args : List Byte) : (v.countersOf args).state.pending = v.pending := by
  unfold State.countersOf
  dsimp only
  split <;> rfl

/-- R197, R204: GET_COUNTERS is judged as a write where it clears the counters, and as a read where it does not. -/
theorem judgeCounters_leavesQueue : LeavesQueue State.judgeCounters := fun v q => by
  unfold State.judgeCounters
  split
  · exact judgeWrite_leavesQueue countersOf_pending 1 v q
  · exact judgeRead_leavesQueue countersOf_pending 1 v q

theorem setPrefixOf_pending (v : State) (args : List Byte) : (v.setPrefixOf args).state.pending = v.pending := by
  unfold State.setPrefixOf
  split
  · rfl
  · split
    · split <;> rfl
    · rfl

theorem getPrefixOf_pending (v : State) (args : List Byte) : (v.getPrefixOf args).state.pending = v.pending :=
  congrArg State.pending (Management.getPrefixOf_state v args)

theorem resyncOf_pending (v : State) : v.resyncOf.state.pending = v.pending := by
  unfold State.resyncOf
  split
  · rfl
  · split
    · rfl
    · exact (walkStart_still v _).pending

theorem purgeOf_pending (v : State) (args : List Byte) : (v.purgeOf args).state.pending = v.pending := by
  unfold State.purgeOf
  dsimp only
  split
  · exact (purgeEntry_still v _).pending
  · rfl

theorem tableResetOf_pending (v : State) : v.tableResetOf.state.pending = v.pending := by
  unfold State.tableResetOf State.tableReset
  split
  · rfl
  · dsimp only
    split
    · exact (walkStart_still _ _).pending
    · rfl

/-! ## Every command -/

/-- Log entry 8: `Fault` has no constructor and no arm refuses, so every command answers a next state. -/
theorem exec_runs (c : Instr) (s : State) : ∃ t, exec c s = .next t := by
  cases c <;> exact ⟨_, rfl⟩

/-- Log entries 6 and 9: no command touches the queue, RESET among them. -/
theorem exec_pending {c : Instr} (h : exec c s = .next t) : t.pending = s.pending := by
  cases c <;> cases h
  case reset => rfl
  case rxError p f | dataFrame p f | pulse p f | declare p f | flushed p f | syncAck p f | query p f | refusedCcf p f =>
    exact receive_pending s p f
  case linkUp p => exact linkRise_pending s p
  case linkDown p => exact linkFall_pending s p
  case transmitFrame p => exact transmit_pending s p
  case releaseTurn => exact (releaseEvent_still s).pending
  case packBatch => exact (packBatch_held s).pending
  case walkCursorStep => exact (walkEvent_still s).pending
  case pulseTimerExpiry f => exact pulseExpiry_pending s f
  case classSweepExpiry c => simpa using (classSweep_still s c).pending
  case tentativeSweepExpiry => exact (tentativeSweep_still s).pending
  case confirmSweepExpiry => simpa using (confirmSweep_held s).pending
  case parkSweepExpiry => simpa using (parkSweep_held s).pending
  case restartHoldExpiry => exact restartExpiry_pending s
  case startupWaitExpiry => exact startupExpiry_pending s
  case holdDownExpiry => exact holdDownEnds_pending s
  case fitnessDwellExpiry => exact dwellEnds_pending s
  case quiesceTimerExpiry => exact quiesceEnds_pending s
  case lateWindowExpiry => exact lateEnds_pending s
  case cutoverLimitExpiry => exact limitEnds_pending s
  case getParam => exact serveRead_pending getParamOf_pending s _ 1
  case setParam => exact serveWrite_pending setParamOf_pending s _ 1
  case getStatus => exact serveRead_pending (fun v _ => (clearLevels_held v).pending) s _ 0
  case getEntry => exact serveRead_pending getEntryOf_pending s _ 2
  case findEntry => exact serveRead_pending findEntryOf_pending s _ 3
  case list => exact serveRead_pending listOf_pending s _ 6
  case getCounters => exact serve_pending s _ judgeCounters_leavesQueue
  case getEvents => exact serveRead_pending (fun _ _ => rfl) s _ 0
  case clearEvents => exact serveWrite_pending (fun _ _ => rfl) s _ 2
  case setPrefix => exact serveWrite_pending setPrefixOf_pending s _ 5
  case getPrefix => exact serveRead_pending getPrefixOf_pending s _ 1
  case switchover => exact serveWrite_pending (fun v _ => (judgeSwitchover_still v _).pending) s _ 1
  case resync => exact serveWrite_pending (fun v _ => resyncOf_pending v) s _ 0
  case purge => exact serveWrite_pending purgeOf_pending s _ 2
  case tableReset => exact serveWrite_pending (fun v _ => tableResetOf_pending v) s _ 0
  case unknownRequest => exact serve_pending s _ (fun _ _ => rfl)

/-- Settles O2: every arm answers a next state, and the frame of the operation it calls holds the queue. -/
theorem everyCommandRunsAndKeepsTheQueue : Obligations.EveryCommandRunsAndKeepsTheQueue := fun c s => by
  obtain ⟨t, h⟩ := exec_runs c s
  exact ⟨t, h, exec_pending h⟩

end Sys2Proof.CommandQueue
